-- ==== Sys2Proof/Word.lean ====
section
/-! DEFINITION. The word the host moves (R34, R43) and the bit sequence a stream or a payload is (R9). -/

namespace Sys2Proof

/-- The 32-bit word written to `CMD` or to any register (R34, R43). -/
abbrev Word := BitVec 32

/-- A bit sequence: index 0 is the first bit in stream order (R9). -/
abbrev Bits := List Bool

end Sys2Proof
end

