-- ==== Sys2Proof/Syntax.lean ====
section
/-! DEFINITION. The twelve commands of the opcode map (R91). No command has an operand field (R90). -/

namespace Sys2Proof

/-- One constructor per row of spec/opcode_table.json. Every operand is implicit (R90). -/
inductive Instr where
  /-- `0x01`, R121: checks the configuration and makes it active. -/
  | cfgcommit
  /-- `0x02`, R122: puts the block in its reset state. -/
  | sreset
  /-- `0x10`, R146: packs `FB` into `PB`. -/
  | mvpack
  /-- `0x11`, R147: unpacks `PB` into `FB`. -/
  | mvunpack
  /-- `0x12`, R148: adds `RADIUS` to each element of `FB` and packs into `PB`. -/
  | mvqpack
  /-- `0x13`, R149: unpacks `PB` and subtracts `RADIUS` into `FB`. -/
  | mvunpackq
  /-- `0x20`, R171: starts an empty output stream. -/
  | wopen
  /-- `0x21`, R172: appends `PB` as a frame unit. -/
  | wframe
  /-- `0x22`, R173: appends `PB` as a motion unit. -/
  | wmotion
  /-- `0x30`, R191: starts reading `IN` from bit 0. -/
  | ropen
  /-- `0x31`, R192: reads the next frame unit into `PB`, or reports end-of-stream. -/
  | rframe
  /-- `0x32`, R193: reads the fixed-length motion unit into `PB`. -/
  | rmotion
deriving DecidableEq, Repr

end Sys2Proof
end

