-- ==== Sys2Proof/WellFormed.lean ====
section
/-! DEFINITION. The command format `CMD8` (R90) and what makes a command word legal (R91, R93). -/

namespace Sys2Proof

/-- The fields of a command word in format `CMD8` (R90). -/
structure Cmd8 where
  /-- Bits 31:8, which must be 0. -/
  zero : BitVec 24
  /-- Bits 7:4, the unit. -/
  grp : BitVec 4
  /-- Bits 3:0, the function within the unit. -/
  fn : BitVec 4
deriving DecidableEq, Repr

/-- The fields `GRP` and `FN` of each command (R91). -/
def Instr.cmd8 : Instr → Cmd8
  | .cfgcommit => ⟨0, 0, 1⟩
  | .sreset    => ⟨0, 0, 2⟩
  | .mvpack    => ⟨0, 1, 0⟩
  | .mvunpack  => ⟨0, 1, 1⟩
  | .mvqpack   => ⟨0, 1, 2⟩
  | .mvunpackq => ⟨0, 1, 3⟩
  | .wopen     => ⟨0, 2, 0⟩
  | .wframe    => ⟨0, 2, 1⟩
  | .wmotion   => ⟨0, 2, 2⟩
  | .ropen     => ⟨0, 3, 0⟩
  | .rframe    => ⟨0, 3, 1⟩
  | .rmotion   => ⟨0, 3, 2⟩

/-- Bits 31:8 are 0 (R90). -/
def Cmd8.zeroOk (c : Cmd8) : Bool := c.zero == 0

/-- The unit is one of the four of R90. -/
def Cmd8.grpOk (c : Cmd8) : Bool := c.grp.toNat ≤ 3

/-- The unit has the function (R91): system 1 and 2, MV unit 0 to 3, writer and reader 0 to 2. -/
def Cmd8.fnOk (c : Cmd8) : Bool :=
  match c.grp.toNat with
  | 0 => 1 ≤ c.fn.toNat && c.fn.toNat ≤ 2
  | 1 => c.fn.toNat ≤ 3
  | 2 => c.fn.toNat ≤ 2
  | 3 => c.fn.toNat ≤ 2
  | _ => false

/-- A legal command (R93): none of the three checks fails. -/
def Cmd8.WellFormed (c : Cmd8) : Bool := c.zeroOk && c.grpOk && c.fnOk

/-- An instruction is well formed when its command word is. It has no operand to check (R90). -/
def Instr.WellFormed (i : Instr) : Bool := i.cmd8.WellFormed

end Sys2Proof
end

