-- ==== Sys2Proof/Decode.lean ====
section
/-! DEFINITION. The decoder of command words, total and rejecting by name, and the encoder (R90, R91, R93, R94). -/

namespace Sys2Proof

/-- Why a word is none of the twelve commands (R93). Each is raised by `decode`, and each makes the block take
ILLEGAL_COMMAND; the split into three names is the model's and no state shows it (safe). -/
inductive DecodeError where
  /-- Bits 31:8 are not 0. -/
  | upperBits
  /-- `GRP` is no unit. -/
  | noSuchUnit
  /-- The unit has no such function. -/
  | noSuchFunction
deriving DecidableEq, Repr

/-- The fields of a word (R90). -/
def fieldsOf (w : Word) : Cmd8 :=
  ⟨w.extractLsb' 8 24, w.extractLsb' 4 4, w.extractLsb' 0 4⟩

/-- The command of a unit and a function number (R91). -/
def commandOf (grp fn : Nat) : Option Instr :=
  match grp, fn with
  | 0, 1 => some .cfgcommit
  | 0, 2 => some .sreset
  | 1, 0 => some .mvpack
  | 1, 1 => some .mvunpack
  | 1, 2 => some .mvqpack
  | 1, 3 => some .mvunpackq
  | 2, 0 => some .wopen
  | 2, 1 => some .wframe
  | 2, 2 => some .wmotion
  | 3, 0 => some .ropen
  | 3, 1 => some .rframe
  | 3, 2 => some .rmotion
  | _, _ => none

/-- The command a word is, or why it is none (R91, R93). -/
def decode (w : Word) : Except DecodeError Instr :=
  let c := fieldsOf w
  if c.zeroOk then
    if c.grpOk then
      match commandOf c.grp.toNat c.fn.toNat with
      | some i => .ok i
      | none => .error .noSuchFunction
    else .error .noSuchUnit
  else .error .upperBits

/-- The instruction the decoder reads from the opcode-table bits `w` of a row of `nbits` bits: one 32-bit word, bit 0
its least significant bit, every bit from `nbits` up 0. -/
def decodeTableWord (nbits w : Nat) : Option Instr :=
  let bits := w % 2 ^ nbits
  if bits < 2 ^ 32 then
    match decode (BitVec.ofNat 32 bits) with
    | .ok i => some i
    | .error _ => none
  else none

/-- The word of three fields (R90). -/
def wordOf (c : Cmd8) : Word := c.zero ++ c.grp ++ c.fn

/-- The command word of an instruction (R90, R91). -/
def encode (i : Instr) : Word := wordOf i.cmd8

end Sys2Proof
end

