-- ==== Sys2Proof/Config.lean ====
section
/-! DEFINITION. The implementation parameters of R6: those the spec leaves OPEN, as a record with no value, and those it
decides. -/

namespace Sys2Proof.Config

/-- The end-of-unit pattern, non-empty by construction (R6, R104, D4: the empty pattern is refused as a parameter
value). -/
structure Sentinel where
  first : Bool
  rest : Bits
deriving DecidableEq, Repr, Inhabited

/-- `SENTINEL` as a bit sequence. -/
def Sentinel.bits (s : Sentinel) : Bits := s.first :: s.rest

/-- The parameters marked OPEN (R6), each an argument of the model for which no rule assumes a value. -/
structure Params where
  /-- `SENTINEL` (D4). -/
  sentinel : Sentinel
  /-- `CAP_PB` (D10), in bits. -/
  capPb : Nat
  /-- `CAP_FB` (D10), in elements. -/
  capFb : Nat
  /-- `CAP_IN` (D10), in bits. -/
  capIn : Nat
  /-- `CAP_OUT` (D10), in bits. -/
  capOut : Nat
  /-- `MVW` (D9, U5), the physical width of one field-buffer element, in bits. No rule reads it: the block's arithmetic is
  over the integers (R16). -/
  mvw : Nat
  /-- `HOSTBUS` (D3, U10), the name of the protocol by which the host reaches registers and ports. No rule reads it. -/
  hostBus : String
deriving DecidableEq, Repr, Inhabited

/-- A physical block with these parameters can hold `v` in a field-buffer element of `MVW` bits, and refuses what it
cannot (U5). That the element is a two's complement number is the model's reading: DEDUCED, assumption log 8. -/
abbrev Params.holds (p : Params) (v : Int) : Prop := 0 < p.mvw ∧ -2 ^ (p.mvw - 1) ≤ v ∧ v < 2 ^ (p.mvw - 1)

/-- The parameters of the machine after reset: a constant with no body, so that nothing can be proved of its value.
DESIGN CHOICE, safe: assumption log 1. -/
opaque openParams : Params

/-- `CNTW`, the physical width of count and length registers (R6, D8). -/
def cntw : Nat := 32

/-- `2^CNTW - 1`, which no count of an admitted run passes (R6, D8, U6). -/
def cntMax : Nat := 2 ^ cntw - 1

end Sys2Proof.Config
end

