-- ==== Sys2Proof/Machine/State.lean ====
section
/-! DEFINITION. The state of the block (R20), the host's pending events and replies, and the reset state (R45). -/

namespace Sys2Proof.Machine

/-- The four sequences of R60 (the fifth space, the registers, is `Reg`). -/
inductive Space where
  | pb
  | fb
  | inp
  | out
deriving DecidableEq, Repr

/-- `WSTATE` (R21). Code 3 is never held and has no constructor. -/
inductive WState where
  /-- 0 `W_CLOSED`: no output stream open. -/
  | closed
  /-- 1 `W_FRAME`: awaiting a frame payload. -/
  | frame
  /-- 2 `W_MOTION`: awaiting a motion payload. -/
  | motion
deriving DecidableEq, Repr

/-- `RSTATE` (R21). -/
inductive RState where
  /-- 0 `R_CLOSED`: no input stream open. -/
  | closed
  /-- 1 `R_FRAME`: AwaitFramePayload. -/
  | frame
  /-- 2 `R_MOTION`: AwaitMotionPayload. -/
  | motion
  /-- 3 `R_DONE`: Done. -/
  | done
deriving DecidableEq, Repr

/-- The causes of R241; `Cause.code` gives the number in `CAUSE`. -/
inductive Cause where
  /-- 0: no fault since reset. -/
  | noFault
  /-- 1: RMOTION, fewer bits remain than the motion field has. -/
  | truncMotion
  /-- 2: RMOTION, the field is whole and too few bits follow for the sentinel. -/
  | truncSentinel
  /-- 3: MVUNPACK, MVUNPACKQ, the payload has not `MLEN` bits. -/
  | truncPayload
  /-- 4: MVPACK, MVQPACK, an element does not fit the field width. -/
  | valueRange
  /-- 5: CFGCOMMIT, a check of the configuration fails. -/
  | configInvalid
  /-- 6: MVPACK, MVQPACK, WMOTION, the operand has the wrong length. -/
  | lengthMismatch
  /-- 7: RMOTION, the bits after the field are not the sentinel. -/
  | sentinelMismatch
  /-- 8: no active configuration, or the wrong session state. -/
  | sequence
  /-- 9: the word is none of the twelve commands. -/
  | illegalCommand
deriving DecidableEq, Repr

/-- The 21 registers of R43. -/
inductive Reg where
  | cmd | status | cause | info | mode | frows | fcols | block | radius
  | brows | bcols | bitwidth | nfields | mlen | wk | outlen | rk | cur | inlen | plen | flen
deriving DecidableEq, Repr

/-- What `HLOADIN` loads: a bit sequence the host gives, or the value of `HREADOUT()` (R63, R95). -/
inductive InSource where
  | bits (s : Bits)
  | readout
deriving DecidableEq, Repr

/-- One thing the outside does to the block: a host primitive of R44, or hardware reset (R280). -/
inductive HostEvent where
  /-- `HWRITE(n, v)`. -/
  | hwrite (n : Nat) (v : Word)
  /-- `HREAD(n)`. -/
  | hread (n : Nat)
  /-- `HLOADP(s)`. -/
  | hloadp (s : Bits)
  /-- `HLOADF(l)`. -/
  | hloadf (l : List Int)
  /-- `HLOADIN(s)`, or `HLOADIN(HREADOUT())`. -/
  | hloadin (src : InSource)
  /-- `HREADP()`. -/
  | hreadp
  /-- `HREADF()`. -/
  | hreadf
  /-- `HREADOUT()`. -/
  | hreadout
  /-- `HREADIN()`. -/
  | hreadin
  /-- Hardware reset (R280); no primitive of the host's. -/
  | hardReset
deriving DecidableEq, Repr

/-- What a read primitive returns to the host (R44). -/
inductive Reply where
  /-- The value of a register. -/
  | value (v : Nat)
  /-- The bits of `PB`, `OUT` or `IN`. -/
  | bits (s : Bits)
  /-- The elements of `FB`. -/
  | ints (l : List Int)
deriving DecidableEq, Repr

/-- The counts that grow by one or are computed, and that no admitted run takes past `2^CNTW - 1` (D8). -/
inductive Counter where
  | wk
  | rk
  | nfields
  | mlen
deriving DecidableEq, Repr

/-- Why the machine stops with a fault. Nothing in the spec stops the block: every fault of R241 is TAKEN, as a next
state with the fault record written (R245), so there is no constructor (assumption log 5; safe). -/
inductive Fault
deriving DecidableEq, Repr

/-- Why the model does not admit a run. -/
inductive Refusal where
  /-- `exec`, for an instruction that has no meaning yet (none in this model). Safe. -/
  | notModelled (mnemonic : String)
  /-- A load, a pack, an unpack, a read unit or an append whose result would pass the capacity `CAP_*` of the sequence,
  or `2^CNTW - 1`: "refuses a run that would pass a capacity" (R6, D8, D10, U6). Raised by `keepWithin`. Safe. -/
  | sequenceLimit (space : Space)
  /-- A command after which a count would pass `2^CNTW - 1` (R6, D8, U6). Raised by `keepCount`. Safe. -/
  | countLimit (counter : Counter)
deriving DecidableEq, Repr

/-- The whole state of the block (R20), then three fields of the model's own: the OPEN parameters, the host's pending
events and the replies the host has had. -/
structure State where
  /-- `MODE` (R22). -/
  mode : BitVec 2
  /-- `FROWS` (R23). -/
  frows : Nat
  /-- `FCOLS` (R24). -/
  fcols : Nat
  /-- `BLOCK` (R25). -/
  block : Nat
  /-- `RADIUS` (R26). -/
  radius : Nat
  /-- `CFG_OK` (R28). -/
  cfgOk : Bool
  /-- `WSTATE` (R21). -/
  wstate : WState
  /-- `WK` (R35). -/
  wk : Nat
  /-- `OUT` (R36); `OUTLEN` is its length. -/
  out : Bits
  /-- `RSTATE` (R21). -/
  rstate : RState
  /-- `RK` (R37). -/
  rk : Nat
  /-- `CUR` (R38). -/
  cur : Nat
  /-- `IN` (R39); `INLEN` is its length. -/
  inp : Bits
  /-- `EOS` (R40). -/
  eos : Bool
  /-- `TRAILING` (R40). -/
  trailing : Bool
  /-- `PB` (R41); `PLEN` is its length. -/
  pb : Bits
  /-- `FB` (R42); `FLEN` is its length. -/
  fb : List Int
  /-- `FAULT` (R33). -/
  fault : Bool
  /-- `CAUSE` (R33, R241). -/
  cause : Cause
  /-- `INFO` (R33). -/
  info : Nat
  /-- MODEL's own: the OPEN parameters of R6. No step changes them (assumption log 1). -/
  par : Config.Params
  /-- MODEL's own: what the host will do next, in its order (assumption log 2). -/
  pending : List HostEvent
  /-- MODEL's own: what the host's reads have returned, oldest first (assumption log 3). -/
  replies : List Reply
deriving DecidableEq, Repr

/-- What one step, or one command, can end in. -/
abbrev Result := Host.Outcome State Fault Refusal

/-- The reset values, all in one place (R45), with the model's own fields of assumption log 1, 2 and 3. -/
def State.reset : State where
  mode := 0
  frows := 0
  fcols := 0
  block := 8
  radius := 0
  cfgOk := false
  wstate := .closed
  wk := 0
  out := []
  rstate := .closed
  rk := 0
  cur := 0
  inp := []
  eos := false
  trailing := false
  pb := []
  fb := []
  fault := false
  cause := .noFault
  info := 0
  par := Config.openParams
  pending := []
  replies := []

end Sys2Proof.Machine
end

