-- ==== Sys2Proof/Machine/Operands.lean ====
section
/-! DEFINITION. What the commands compute on: sub-sequences, field coding, field width, the sentinel search (R9 to R12),
the derived configuration (R29 to R31), the pure functions of the MV unit (R141, R142, R144) and the places of a motion
field's components (R98, R140). -/

namespace Sys2Proof.Machine

/-- `s[i..j)` (R9): the bits at indices `i` to `j - 1`. -/
def slice (s : Bits) (i j : Nat) : Bits := (s.drop i).take (j - i)

/-- `enc_w(u)` (R10): the bit at index `j` is `floor(u / 2^(w-1-j)) mod 2`. -/
def enc (w u : Nat) : Bits := (List.range w).map fun j => u / 2 ^ (w - 1 - j) % 2 == 1

/-- `val(s)` (R10): the sum of `s[j] * 2^(len(s)-1-j)`. -/
def val : Bits → Nat
  | [] => 0
  | b :: t => b.toNat * 2 ^ t.length + val t

/-- The least `w' >= w` with `2^w' >= n`, looking at no more than `fuel` of them. -/
def leastWidth (n : Nat) : Nat → Nat → Nat
  | 0, w => w
  | fuel + 1, w => if n ≤ 2 ^ w then w else leastWidth n fuel (w + 1)

/-- `bw(R)` (R11): the least `w` with `2^w >= 2*R + 1`. -/
def bw (r : Nat) : Nat := leastWidth (2 * r + 1) (2 * r + 1) 0

/-- The least `p' >= p` such that `pat` stands at `p'`, where `rest` is what the sequence holds from index `p` on. -/
def searchFrom (pat : Bits) : Bits → Nat → Option Nat
  | [], p => if pat.isPrefixOf [] then some p else none
  | b :: t, p => if pat.isPrefixOf (b :: t) then some p else searchFrom pat t (p + 1)

/-- `find(S, s, c)` (R12): the least `p >= c` with `s[p..p+len(S)) = S`, every bit offset tried (D6). Past the end of `s`
there is none (assumption log 10). -/
def find (pat s : Bits) (c : Nat) : Option Nat :=
  if c ≤ s.length then searchFrom pat (s.drop c) c else none

/-- A value does not fit in `w` unsigned bits (R141). -/
def misfit (w : Nat) (u : Int) : Bool := decide (u < 0) || decide ((2 : Int) ^ w ≤ u)

/-- The least index of an element that does not fit in `w` bits (R141, R146). -/
def firstMisfit (l : List Int) (w : Nat) : Option Nat := l.findIdx? (misfit w)

/-- The fields of a list, one after another (R97, R141). -/
def packFields (l : List Int) (w : Nat) : Bits := l.flatMap fun u => enc w u.toNat

/-- `Pack(l, w)` (R141), or the index at which it fails as invalid-argument. -/
def pack (l : List Int) (w : Nat) : Except Nat Bits :=
  match firstMisfit l w with
  | some i => .error i
  | none => .ok (packFields l w)

/-- The `n` fields of a sequence, each read as an unsigned number (R92, R142). -/
def unpackFields (s : Bits) (w n : Nat) : List Int :=
  (List.range n).map fun i => (val (slice s (i * w) ((i + 1) * w)) : Int)

/-- `Unpack(s, w, n)` (R142), or the length with which it fails as truncated-input. -/
def unpack (s : Bits) (w n : Nat) : Except Nat (List Int) :=
  if s.length = n * w then .ok (unpackFields s w n) else .error s.length

/-- `Quant(l, R)` (R144). -/
def quant (l : List Int) (r : Nat) : List Int := l.map fun v => v + r

/-- `Dequant(l, R)` (R144). -/
def dequant (l : List Int) (r : Nat) : List Int := l.map fun v => v - r

/-- `MODE` code 2, block-matching (R22). -/
def modeBm : BitVec 2 := 2

/-- `MODE` code 3, reserved (R22). -/
def modeReserved : BitVec 2 := 3

/-- `FROWS / BLOCK`, what `BROWS` is when the configuration is active (R29). -/
def State.gridRows (s : State) : Nat := s.frows / s.block

/-- `FCOLS / BLOCK`, what `BCOLS` is when the configuration is active (R29). -/
def State.gridCols (s : State) : Nat := s.fcols / s.block

/-- The number of fields of the configuration that stands in the registers (R31, R121). -/
def State.cfgFields (s : State) : Nat := s.gridRows * s.gridCols * 2

/-- The motion payload's length of the configuration that stands in the registers (R31, R121). -/
def State.cfgMlen (s : State) : Nat := s.cfgFields * bw s.radius

/-- `BROWS` (R29). -/
def State.brows (s : State) : Nat := if s.cfgOk then s.gridRows else 0

/-- `BCOLS` (R29). -/
def State.bcols (s : State) : Nat := if s.cfgOk then s.gridCols else 0

/-- `BITWIDTH` (R30). -/
def State.bitwidth (s : State) : Nat := if s.cfgOk then bw s.radius else 0

/-- `NFIELDS` (R31). -/
def State.nfields (s : State) : Nat := if s.cfgOk then s.cfgFields else 0

/-- `MLEN` (R31). -/
def State.mlen (s : State) : Nat := if s.cfgOk then s.cfgMlen else 0

/-- `SENTINEL` (R6). -/
def State.sentinel (s : State) : Bits := s.par.sentinel.bits

/-- `SLEN` (R6). -/
def State.slen (s : State) : Nat := s.sentinel.length

/-- The capacity of a sequence (R6, D10). -/
def State.capacity (s : State) : Space → Nat
  | .pb => s.par.capPb
  | .fb => s.par.capFb
  | .inp => s.par.capIn
  | .out => s.par.capOut

/-- The number of the field of block row `r`, block column `c` and component `k`, 0 for dx and 1 for dy (R98, R140). -/
def State.fieldIndex (s : State) (r c k : Nat) : Nat := (r * s.bcols + c) * 2 + k

/-- The first check of CFGCOMMIT to fail (R121), as the `INFO` it reports. -/
def State.configCheck (s : State) : Option Nat :=
  if s.mode = modeReserved then some 1
  else if s.frows = 0 then some 2
  else if s.fcols = 0 then some 3
  else if s.block = 0 then some 4
  else if s.frows % s.block ≠ 0 then some 5
  else if s.fcols % s.block ≠ 0 then some 6
  else none

/-- The number of a register (R43). -/
def Reg.number : Reg → Nat
  | .cmd => 0
  | .status => 1
  | .cause => 2
  | .info => 3
  | .mode => 4
  | .frows => 5
  | .fcols => 6
  | .block => 7
  | .radius => 8
  | .brows => 9
  | .bcols => 10
  | .bitwidth => 11
  | .nfields => 12
  | .mlen => 13
  | .wk => 14
  | .outlen => 15
  | .rk => 16
  | .cur => 17
  | .inlen => 18
  | .plen => 19
  | .flen => 20

/-- The register of a number, none above 20 (R43). -/
def regOfNumber : Nat → Option Reg
  | 0 => some .cmd
  | 1 => some .status
  | 2 => some .cause
  | 3 => some .info
  | 4 => some .mode
  | 5 => some .frows
  | 6 => some .fcols
  | 7 => some .block
  | 8 => some .radius
  | 9 => some .brows
  | 10 => some .bcols
  | 11 => some .bitwidth
  | 12 => some .nfields
  | 13 => some .mlen
  | 14 => some .wk
  | 15 => some .outlen
  | 16 => some .rk
  | 17 => some .cur
  | 18 => some .inlen
  | 19 => some .plen
  | 20 => some .flen
  | _ => none

end Sys2Proof.Machine
end

