-- ==== Sys2Proof/Machine/Flags.lean ====
section
/-! DEFINITION. The codes of `WSTATE`, `RSTATE` and `CAUSE` (R21, R241), the word `STATUS` (R32), and how end-of-stream
sets `EOS` and `TRAILING` (R40, R192). The block has no other flag (R46). -/

namespace Sys2Proof.Machine

/-- The two bits of `WSTATE` (R21). -/
def WState.code : WState → BitVec 2
  | .closed => 0
  | .frame => 1
  | .motion => 2

/-- The two bits of `RSTATE` (R21). -/
def RState.code : RState → BitVec 2
  | .closed => 0
  | .frame => 1
  | .motion => 2
  | .done => 3

/-- The word in `CAUSE` (R241). -/
def Cause.code : Cause → Word
  | .noFault => 0
  | .truncMotion => 1
  | .truncSentinel => 2
  | .truncPayload => 3
  | .valueRange => 4
  | .configInvalid => 5
  | .lengthMismatch => 6
  | .sentinelMismatch => 7
  | .sequence => 8
  | .illegalCommand => 9

/-- `STATUS` (R32): `RSTATE` in 7:6, `WSTATE` in 5:4, `TRAILING` 3, `EOS` 2, `FAULT` 1, `CFG_OK` 0, the rest 0. -/
def State.status (s : State) : Word :=
  (0#24 : BitVec 24) ++ s.rstate.code ++ s.wstate.code ++ BitVec.ofBool s.trailing ++ BitVec.ofBool s.eos
    ++ BitVec.ofBool s.fault ++ BitVec.ofBool s.cfgOk

/-- What `TRAILING` becomes at end-of-stream (R40, R192): 1 when bits remain from `CUR` on. -/
def State.leftover (s : State) : Bool := decide (s.cur < s.inp.length)

/-- End-of-stream (R192, R242): a status, not a fault. -/
def endOfStream (s : State) : State :=
  { s with rstate := .done, eos := true, trailing := s.leftover }

end Sys2Proof.Machine
end

