-- ==== Sys2Proof/Machine/Ops.lean ====
section
/-! DEFINITION. The shared operations: taking a fault and the return from the faulted condition (R15, R245, R247), the
common execution sequence (R120), the memory primitives (R14), the limits of D8 and D10, and the operations the commands
of one family share. -/

namespace Sys2Proof.Machine

/-- `raise Cause(info)` (R15, R245): the fault record is written and nothing else changes. -/
def raise (s : State) (c : Cause) (info : Nat) : State :=
  { s with fault := true, cause := c, info := info }

/-- A command that ends in a fault (R15). The block goes on to its next state, in the faulted condition. -/
def raised (s : State) (c : Cause) (info : Nat) : Result := .next (raise s c info)

/-- Every element of the block at its reset value (R45, R122, R280): the return from the faulted condition (R247). The
parameters are no state of the block (R280); what the host has yet to do and has been told is the host's. -/
def resetBlock (s : State) : State :=
  { State.reset with par := s.par, pending := s.pending, replies := s.replies }

/-- Step 1 of R120 (and R246) for every command but SRESET: with `FAULT = 1` the write is ignored. -/
def unlessFaulted (s : State) (k : Result) : Result := if s.fault then .next s else k

/-- Steps 1 and 4 of R120: a command of a unit needs `CFG_OK = 1`, or raises SEQUENCE with its command word. -/
def unitCommand (i : Instr) (s : State) (k : Result) : Result :=
  unlessFaulted s (if s.cfgOk then k else raised s .sequence (encode i).toNat)

/-- The length `n` of a sequence is within its capacity and within `2^CNTW - 1` (D8, D10). -/
abbrev State.admits (s : State) (sp : Space) (n : Nat) : Prop := n ≤ Config.cntMax ∧ n ≤ s.capacity sp

/-- The four sequences of R60 are within their capacities. A list of bits or of integers has one form only, so this is
all that the memory's well-formedness asks (assumption log 11). -/
abbrev Memory.wf (s : State) : Prop :=
  s.admits .pb s.pb.length ∧ s.admits .fb s.fb.length ∧ s.admits .inp s.inp.length ∧ s.admits .out s.out.length

/-- The model admits only runs that stay within the capacity of a sequence (R6, D10, U6). -/
def keepWithin (s : State) (sp : Space) (n : Nat) (k : Result) : Result :=
  if s.admits sp n then k else .refused (.sequenceLimit sp)

/-- The model admits only runs in which a count stays within `2^CNTW - 1` (R6, D8, U6). -/
def keepCount (c : Counter) (n : Nat) (k : Result) : Result :=
  if n ≤ Config.cntMax then k else .refused (.countLimit c)

/-- `MemRead(IN, a, n)` (R14). -/
def memRead (s : State) (a n : Nat) : Bits := slice s.inp a (a + n)

/-- `MemWrite(OUT, b)` (R14): appends. -/
def memWrite (s : State) (b : Bits) : State := { s with out := s.out ++ b }

/-- The bit of a space at an index, none outside it (R60). -/
def bitAt (s : State) (sp : Space) (a : Nat) : Option Bool :=
  match sp with
  | .pb => s.pb[a]?
  | .inp => s.inp[a]?
  | .out => s.out[a]?
  | .fb => none

/-- Where a store goes: the end of `OUT` (R124). -/
def storeAddress (s : State) : Nat := s.out.length

/-- Both sessions close (R27, R121). -/
def closeSessions (s : State) : State := { s with wstate := .closed, rstate := .closed }

/-- A motion unit follows the frame unit of frame `k` (R102, R170, R190): `MODE = 2` and `k > 0`. -/
def State.owesMotion (s : State) (k : Nat) : Bool := decide (s.mode = modeBm) && decide (0 < k)

/-- `PB <- b`, `PLEN <- len(b)` (R13, R41). -/
def loadPb (s : State) (b : Bits) : Result := keepWithin s .pb b.length (.next { s with pb := b })

/-- `FB <- l`, `FLEN <- len(l)` (R13, R42). -/
def loadFb (s : State) (l : List Int) : Result := keepWithin s .fb l.length (.next { s with fb := l })

/-- `IN <- b` with the reader closed and rewound: `HLOADIN` (R44). -/
def loadIn (s : State) (b : Bits) : Result :=
  keepWithin s .inp b.length
    (.next { s with inp := b, cur := 0, rk := 0, rstate := .closed, eos := false, trailing := false })

/-- Pack the list `l` into `PB` (R146, R148): the length check of `FB`, then the range check at the least index, then
the payload. -/
def packInto (s : State) (l : List Int) : Result :=
  if s.fb.length ≠ s.nfields then raised s .lengthMismatch s.fb.length
  else
    match pack l s.bitwidth with
    | .error i => raised s .valueRange i
    | .ok b => loadPb s b

/-- Unpack `PB` into `FB`, each element less `r` (R147 with `r = 0`, R149 with `r = RADIUS`). -/
def unpackInto (s : State) (r : Nat) : Result :=
  match unpack s.pb s.bitwidth s.nfields with
  | .error n => raised s .truncPayload n
  | .ok l => loadFb s (dequant l r)

/-- Append `PB` and the sentinel to `OUT` as one unit and go on with the state it leaves (R101, R172, R173). -/
def appendUnit (s : State) (k : State → Result) : Result :=
  keepWithin s .out (s.out.length + s.pb.length + s.slen) (k (memWrite s (s.pb ++ s.sentinel)))

/-- The writer's frame is complete: the next frame's unit is awaited and `WK` counts one more (R172, R173). -/
def completeWritten (s : State) : Result :=
  keepCount .wk (s.wk + 1) (.next { s with wstate := .frame, wk := s.wk + 1 })

/-- Deliver the payload of `n` bits at `CUR` in `PB`, put `CUR` past the sentinel behind it, and go on (R192, R193). -/
def takeUnit (s : State) (n : Nat) (k : State → Result) : Result :=
  keepWithin s .pb n (k { s with pb := memRead s s.cur n, cur := s.cur + n + s.slen })

/-- The reader's frame is complete: the next frame's unit is awaited and `RK` counts one more (R192, R193). -/
def completeRead (s : State) : Result :=
  keepCount .rk (s.rk + 1) (.next { s with rstate := .frame, rk := s.rk + 1 })

end Sys2Proof.Machine
end

