-- ==== Sys2Proof/Machine/Mv.lean ====
section
/-! DEFINITION. The commands of the MV unit (R146 to R149). They touch no framer state (R151). -/

namespace Sys2Proof.Machine

/-- MVPACK (R146). -/
def execMvpack (s : State) : Result := unitCommand .mvpack s (packInto s s.fb)

/-- MVUNPACK (R147). -/
def execMvunpack (s : State) : Result := unitCommand .mvunpack s (unpackInto s 0)

/-- MVQPACK (R148): the range check is made on the shifted values, and `FB` keeps the signed ones. -/
def execMvqpack (s : State) : Result := unitCommand .mvqpack s (packInto s (quant s.fb s.radius))

/-- MVUNPACKQ (R149). -/
def execMvunpackq (s : State) : Result := unitCommand .mvunpackq s (unpackInto s s.radius)

end Sys2Proof.Machine
end

