-- ==== Sys2Proof/Machine/Reader.lean ====
section
/-! DEFINITION. The framer reader (R191 to R194). -/

namespace Sys2Proof.Machine

/-- ROPEN (R191). -/
def execRopen (s : State) : Result :=
  unitCommand .ropen s
    (.next { s with cur := 0, rk := 0, rstate := .frame, eos := false, trailing := false })

/-- RFRAME in `R_FRAME` (R192): a unit ends at the first sentinel from `CUR` on, or the stream has ended. -/
def readFrameUnit (s : State) : Result :=
  match find s.sentinel s.inp s.cur with
  | none => .next (endOfStream s)
  | some p =>
    takeUnit s (p - s.cur) fun t => if t.owesMotion t.rk then .next { t with rstate := .motion } else completeRead t

/-- RFRAME (R192). -/
def execRframe (s : State) : Result :=
  unitCommand .rframe s
    (match s.rstate with
    | .done => .next s
    | .frame => readFrameUnit s
    | .closed => raised s .sequence (encode .rframe).toNat
    | .motion => raised s .sequence (encode .rframe).toNat)

/-- RMOTION in `R_MOTION` (R193): the field is taken by its length, and the sentinel behind it checked. -/
def readMotionUnit (s : State) : Result :=
  let rem := s.inp.length - s.cur
  if rem < s.mlen then raised s .truncMotion rem
  else if rem - s.mlen < s.slen then raised s .truncSentinel (rem - s.mlen)
  else if memRead s (s.cur + s.mlen) s.slen ≠ s.sentinel then raised s .sentinelMismatch (s.cur + s.mlen)
  else takeUnit s s.mlen completeRead

/-- RMOTION (R193). -/
def execRmotion (s : State) : Result :=
  unitCommand .rmotion s
    (if s.rstate = .motion then readMotionUnit s else raised s .sequence (encode .rmotion).toNat)

end Sys2Proof.Machine
end

