-- ==== Sys2Proof/Machine/System.lean ====
section
/-! DEFINITION. The system commands (R121, R122). -/

namespace Sys2Proof.Machine

/-- CFGCOMMIT (R121). A configuration whose `NFIELDS` or `MLEN` passes `2^CNTW - 1` is not admitted (assumption
log 6). -/
def execCfgcommit (s : State) : Result :=
  unlessFaulted s
    (match s.configCheck with
    | some n => raised s .configInvalid n
    | none =>
      keepCount .nfields s.cfgFields
        (keepCount .mlen s.cfgMlen (.next { closeSessions s with cfgOk := true })))

/-- SRESET (R122): the one command that runs with `FAULT = 1` too. -/
def execSreset (s : State) : Result := .next (resetBlock s)

end Sys2Proof.Machine
end

