-- ==== Sys2Proof/Machine/Writer.lean ====
section
/-! DEFINITION. The framer writer (R171 to R174). -/

namespace Sys2Proof.Machine

/-- WOPEN (R171). -/
def execWopen (s : State) : Result :=
  unitCommand .wopen s (.next { s with out := [], wk := 0, wstate := .frame })

/-- WFRAME (R172). -/
def execWframe (s : State) : Result :=
  unitCommand .wframe s
    (if s.wstate = .frame then
      appendUnit s fun t => if t.owesMotion t.wk then .next { t with wstate := .motion } else completeWritten t
    else raised s .sequence (encode .wframe).toNat)

/-- WMOTION (R173). -/
def execWmotion (s : State) : Result :=
  unitCommand .wmotion s
    (if s.wstate = .motion then
      if s.pb.length ≠ s.mlen then raised s .lengthMismatch s.pb.length
      else appendUnit s completeWritten
    else raised s .sequence (encode .wmotion).toNat)

end Sys2Proof.Machine
end

