-- ==== Sys2Proof/Machine/Dispatch.lean ====
section
/-! DEFINITION. One arm per command: what the block does when the host writes its word to `CMD`. -/

namespace Sys2Proof.Machine

def exec (i : Instr) (s : State) : Host.Outcome State Fault Refusal :=
  match i with
  | .cfgcommit => Sys2Proof.Machine.execCfgcommit s
  | .sreset => Sys2Proof.Machine.execSreset s
  | .mvpack => Sys2Proof.Machine.execMvpack s
  | .mvunpack => Sys2Proof.Machine.execMvunpack s
  | .mvqpack => Sys2Proof.Machine.execMvqpack s
  | .mvunpackq => Sys2Proof.Machine.execMvunpackq s
  | .wopen => Sys2Proof.Machine.execWopen s
  | .wframe => Sys2Proof.Machine.execWframe s
  | .wmotion => Sys2Proof.Machine.execWmotion s
  | .ropen => Sys2Proof.Machine.execRopen s
  | .rframe => Sys2Proof.Machine.execRframe s
  | .rmotion => Sys2Proof.Machine.execRmotion s

end Sys2Proof.Machine
end

