-- ==== Sys2Proof/Machine/HostPort.lean ====
section
/-! DEFINITION. The host's side of the block: the register file (R43) and the primitives, each one atomic event (R44). -/

namespace Sys2Proof.Machine

/-- A word written to `CMD` (R120): a legal command runs; an illegal one is ignored with `FAULT = 1` and raises
ILLEGAL_COMMAND with the word otherwise (R93). -/
def command (c : Word) (s : State) : Result :=
  match decode c with
  | .ok i => exec i s
  | .error _ => unlessFaulted s (raised s .illegalCommand c.toNat)

/-- A configuration register was written (R27): no configuration is active and both sessions close. -/
def configWritten (s : State) : State := { closeSessions s with cfgOk := false }

/-- `HWRITE(n, v)` (R27, R43, R44). A read-only or absent register ignores the write. -/
def writeRegister (n : Nat) (v : Word) (s : State) : Result :=
  match regOfNumber n with
  | some .cmd => command v s
  | some .mode => unlessFaulted s (.next { configWritten s with mode := v.setWidth 2 })
  | some .frows => unlessFaulted s (.next { configWritten s with frows := v.toNat })
  | some .fcols => unlessFaulted s (.next { configWritten s with fcols := v.toNat })
  | some .block => unlessFaulted s (.next { configWritten s with block := v.toNat })
  | some .radius => unlessFaulted s (.next { configWritten s with radius := v.toNat })
  | _ => .next s

/-- The value of a register (R22 to R42). `CMD` reads 0 (R34). -/
def State.regValue (s : State) : Reg → Nat
  | .cmd => 0
  | .status => s.status.toNat
  | .cause => s.cause.code.toNat
  | .info => s.info
  | .mode => s.mode.toNat
  | .frows => s.frows
  | .fcols => s.fcols
  | .block => s.block
  | .radius => s.radius
  | .brows => s.brows
  | .bcols => s.bcols
  | .bitwidth => s.bitwidth
  | .nfields => s.nfields
  | .mlen => s.mlen
  | .wk => s.wk
  | .outlen => s.out.length
  | .rk => s.rk
  | .cur => s.cur
  | .inlen => s.inp.length
  | .plen => s.pb.length
  | .flen => s.fb.length

/-- `HREAD(n)` (R43): a number above 20 reads 0. -/
def readRegister (n : Nat) (s : State) : Nat :=
  match regOfNumber n with
  | some r => s.regValue r
  | none => 0

/-- A read returns its value to the host and changes nothing of the block (R44, R70). -/
def reply (s : State) (r : Reply) : Result := .next { s with replies := s.replies ++ [r] }

/-- The bits that `HLOADIN` loads (R63). -/
def State.source (s : State) : InSource → Bits
  | .bits b => b
  | .readout => s.out

/-- What one event from outside does to the block (R44, R280). -/
def perform (e : HostEvent) (s : State) : Result :=
  match e with
  | .hwrite n v => writeRegister n v s
  | .hread n => reply s (.value (readRegister n s))
  | .hloadp b => unlessFaulted s (loadPb s b)
  | .hloadf l => unlessFaulted s (loadFb s l)
  | .hloadin src => unlessFaulted s (loadIn s (s.source src))
  | .hreadp => reply s (.bits s.pb)
  | .hreadf => reply s (.ints s.fb)
  | .hreadout => reply s (.bits s.out)
  | .hreadin => reply s (.bits s.inp)
  | .hardReset => .next (resetBlock s)

/-- The host's next event, taken from the front of what it has yet to do (R73). With none, the block is idle and keeps
all its state (R255). -/
def nextEvent (s : State) : Result :=
  match s.pending with
  | [] => .next s
  | e :: rest => perform e { s with pending := rest }

/-- Events one after another, each complete before the next begins (R73). -/
def performAll : List HostEvent → State → Result
  | [], s => .next s
  | e :: rest, s =>
    match perform e s with
    | .next t => performAll rest t
    | .fault r => .fault r
    | .refused r => .refused r

end Sys2Proof.Machine
end

