-- ==== Sys2Proof/Machine/Step.lean ====
section
/-! DEFINITION. One step of the machine, and where a test puts a command for the next step to run. -/

namespace Sys2Proof.Machine

/-- One step: the host's next event, or nothing (R18, R73, R255). -/
def step (s : State) : Host.Outcome State Fault Refusal := nextEvent s

/-- The command word `w` is what the host writes to `CMD` next. The block fetches nothing (R21): a program is the
sequence of the host's events, and this puts one `HWRITE(0, w)` before the others (assumption log 2). -/
def State.withFetchWord (s : State) (nbits w : Nat) : State :=
  { s with pending := .hwrite 0 (BitVec.ofNat 32 (w % 2 ^ nbits)) :: s.pending }

end Sys2Proof.Machine
end

