-- ==== Sys2Proof/Machine/Script.lean ====
section
/-! DEFINITION. The host's notation and duties: script lines and pseudo-instructions (R95, R96), the encoding and
decoding sequences (R222, R223), and the recommended packing of a stored stream in bytes (R66). None of it is the
block's; the block sees only the events. -/

namespace Sys2Proof.Machine

/-- One line of a script (R95), or a pseudo-instruction (R96). -/
inductive ScriptLine where
  /-- A command mnemonic. -/
  | cmd (i : Instr)
  /-- `SET <reg> <value>`. -/
  | set (r : Reg) (v : Word)
  /-- `GET <reg>`. -/
  | get (r : Reg)
  /-- `LOADP <bits>`. -/
  | loadp (s : Bits)
  /-- `LOADF [v0, v1, ...]`. -/
  | loadf (l : List Int)
  /-- `LOADIN <bits>`. -/
  | loadin (s : Bits)
  /-- `LOADIN OUT`. -/
  | loadinOut
  /-- `READP`. -/
  | readp
  /-- `READF`. -/
  | readf
  /-- `READOUT`. -/
  | readout
  /-- `# text`. -/
  | comment (text : String)
  /-- `CONFIG m, fr, fc, b, r`. -/
  | config (m fr fc b r : Word)
  /-- `ENCMOTION`. -/
  | encmotion
  /-- `DECMOTION`. -/
  | decmotion
  /-- `LOOPBACK`. -/
  | loopback
deriving DecidableEq, Repr

/-- A command issued: its word written to `CMD` (R95). -/
def issue (i : Instr) : HostEvent := .hwrite 0 (encode i)

/-- What a script line stands for (R95, R96). -/
def ScriptLine.expand : ScriptLine → List HostEvent
  | .cmd i => [issue i]
  | .set r v => [.hwrite r.number v]
  | .get r => [.hread r.number]
  | .loadp s => [.hloadp s]
  | .loadf l => [.hloadf l]
  | .loadin s => [.hloadin (.bits s)]
  | .loadinOut => [.hloadin .readout]
  | .readp => [.hreadp]
  | .readf => [.hreadf]
  | .readout => [.hreadout]
  | .comment _ => []
  | .config m fr fc b r =>
    [.hwrite Reg.mode.number m, .hwrite Reg.frows.number fr, .hwrite Reg.fcols.number fc,
      .hwrite Reg.block.number b, .hwrite Reg.radius.number r, issue .cfgcommit]
  | .encmotion => [issue .mvqpack, issue .wmotion]
  | .decmotion => [issue .rmotion, issue .mvunpackq]
  | .loopback => [.hloadin .readout, issue .ropen]

/-- The events of a script. -/
def scriptEvents (ls : List ScriptLine) : List HostEvent := ls.flatMap ScriptLine.expand

/-- One frame to encode: the payload `P_k`, and the signed field `V_k` used when a motion unit is due (R222). -/
structure FrameData where
  payload : Bits
  field : List Int
deriving DecidableEq, Repr

/-- A motion unit is due for frame `k` in mode `m` (R102). -/
def motionDue (m : BitVec 2) (k : Nat) : Bool := decide (m = modeBm) && decide (0 < k)

/-- The host's encoding loop from frame `k` on (R222). -/
def encodeFrames (m : BitVec 2) : Nat → List FrameData → List HostEvent
  | _, [] => []
  | k, f :: fs =>
    [.hloadp f.payload, issue .wframe] ++
      (if motionDue m k then [.hloadf f.field, issue .mvqpack, issue .wmotion] else []) ++
      encodeFrames m (k + 1) fs

/-- The host's encoding sequence after CONFIG (R222). -/
def encodeSequence (m : BitVec 2) (fs : List FrameData) : List HostEvent :=
  issue .wopen :: encodeFrames m 0 fs ++ [.hreadout]

/-- How the host's decoding loop ends (R223). -/
inductive LoopEnd where
  /-- `EOS = 1`: it stops normally, `RK` frames were read. -/
  | ended (s : State)
  /-- `FAULT = 1`: it stops and reports `RK` frames recovered and `CAUSE`. -/
  | faulted (s : State)
  /-- A step left the runs the model admits. -/
  | refused (r : Refusal)
  /-- The rounds given ran out. -/
  | unfinished (s : State)
deriving DecidableEq, Repr

/-- Run events and look at `STATUS.FAULT` after them (R221, R223). -/
def attempt (es : List HostEvent) (s : State) (k : State → LoopEnd) : LoopEnd :=
  match performAll es s with
  | .next t => if t.fault then .faulted t else k t
  | .fault r => nomatch r
  | .refused r => .refused r

/-- The host's decoding loop (R223), at most `rounds` times round. -/
def decodeLoop : Nat → State → LoopEnd
  | 0, s => .unfinished s
  | rounds + 1, s =>
    attempt [issue .rframe] s fun t =>
      if t.eos then .ended t
      else
        attempt [.hreadp] t fun u =>
          if u.rstate = .motion then
            attempt [issue .rmotion] u fun v =>
              attempt [issue .mvunpackq, .hreadf] v fun w => decodeLoop rounds w
          else decodeLoop rounds u

/-- The first eight bits of a sequence as one byte (R66): bit `i` in bit `7 - (i mod 8)`. -/
def byteOf (b : Bits) : BitVec 8 := BitVec.ofNat 8 (val (b.take 8))

/-- The first `n` bytes of a sequence of at least `8 * n` bits, in order (R66). -/
def wholeBytes : Nat → Bits → List (BitVec 8)
  | 0, _ => []
  | n + 1, b => byteOf b :: wholeBytes n (b.drop 8)

/-- The recommended packing of the stream `b` in bytes, the rest of the last byte filled with the padding `pad` (R66). The
padding may hold any bits (U16), so it is the host's to give. -/
def bytesOf (b pad : Bits) : List (BitVec 8) := wholeBytes ((b.length + pad.length) / 8) (b ++ pad)

/-- The stream of a list of stored bytes (R66). -/
def streamOf (l : List (BitVec 8)) : Bits := l.flatMap fun v => enc 8 v.toNat

end Sys2Proof.Machine
end

