-- ==== Sys2Proof/Safety.lean ====
section
/-! DEFINITION. The terms in which claims about the block are made: when commands are legal, the invariant of its runs,
the classes of faults (R240), the property the framer depends on (R105), and the stream of a sequence of frames (R102)
with the events that write and read it. -/

namespace Sys2Proof.Machine

/-- `FAULT = 0` and `CFG_OK = 1`: a unit's command is neither ignored nor refused for want of a configuration (R120). -/
abbrev State.ready (s : State) : Prop := s.fault = false ∧ s.cfgOk = true

/-- The values that are legal after CFGCOMMIT (R22 to R26). -/
abbrev State.configLegal (s : State) : Prop :=
  s.mode ≠ modeReserved ∧ 0 < s.frows ∧ 0 < s.fcols ∧ 0 < s.block ∧ s.block ∣ s.frows ∧ s.block ∣ s.fcols

/-- The conditions that CFGCOMMIT refuses, in the order in which it checks them (R121). -/
abbrev State.commitFaults (s : State) : List Prop :=
  [s.mode = 3, s.frows = 0, s.fcols = 0, s.block = 0, s.frows % s.block ≠ 0, s.fcols % s.block ≠ 0]

/-- `n` is the place of the first condition of the list that holds. -/
abbrev FirstToHold (cs : List Prop) (n : Nat) : Prop :=
  ∃ c, cs[n]? = some c ∧ c ∧ ∀ (m : Nat) (d : Prop), m < n → cs[m]? = some d → ¬ d

/-- `s` with other values of the parameters that no rule reads (R6, D3, D9). -/
def withPhysical (mvw : Nat) (hostBus : String) (s : State) : State :=
  { s with par := { s.par with mvw := mvw, hostBus := hostBus } }

/-- What holds at reset and after every step. -/
structure State.Inv (s : State) : Prop where
  /-- Every sequence is within its capacity (D8, D10). -/
  memory : Memory.wf s
  /-- `0 <= CUR <= INLEN` always (R38). -/
  cursor : s.cur ≤ s.inp.length
  /-- Every completed frame has put at least one bit in `OUT` (R101, R104). -/
  written : s.wk ≤ s.out.length
  /-- Every recovered frame has moved `CUR` by at least one bit (R197). -/
  recovered : s.rk ≤ s.cur
  /-- Without an active configuration both sessions are closed (R27). -/
  closed : s.cfgOk = false → s.wstate = .closed ∧ s.rstate = .closed
  /-- An active configuration has passed the checks of CFGCOMMIT (R28, R121). -/
  config : s.cfgOk = true → s.configLegal ∧ s.cfgFields ≤ Config.cntMax ∧ s.cfgMlen ≤ Config.cntMax
  /-- `CAUSE` and `INFO` are 0 exactly until the first fault since reset (R33, R241). -/
  record : (s.fault = false ↔ s.cause = .noFault) ∧ (s.fault = false → s.info = 0)
  /-- `W_MOTION` is entered only in `MODE = 2` for a frame after the first (R172, R173). -/
  writerOwes : s.wstate = .motion → s.mode = modeBm ∧ 0 < s.wk
  /-- `R_MOTION` is entered only in `MODE = 2` for a frame after the first (R192, R193). -/
  readerOwes : s.rstate = .motion → s.mode = modeBm ∧ 0 < s.rk
  /-- `R_DONE` is entered with end-of-stream (R192). -/
  done : s.rstate = .done → s.eos = true
  /-- After end-of-stream the reader stays done until its session closes (R194). -/
  ended : s.eos = true → s.rstate = .done ∨ s.rstate = .closed
  /-- `TRAILING` tells whether bits are left at end-of-stream (R40). -/
  leftover : s.trailing = (s.eos && decide (s.cur < s.inp.length))

/-- The classes of R240 and R241. The third class of the source, lossy saturation, is no fault and is not the
block's. -/
inductive FaultClass where
  | truncatedInput
  | invalidArgument
  | protocol
deriving DecidableEq, Repr

/-- The class of a cause (R241). -/
def Cause.faultClass : Cause → Option FaultClass
  | .noFault => none
  | .truncMotion => some .truncatedInput
  | .truncSentinel => some .truncatedInput
  | .truncPayload => some .truncatedInput
  | .valueRange => some .invalidArgument
  | .configInvalid => some .invalidArgument
  | .lengthMismatch => some .invalidArgument
  | .sentinelMismatch => some .protocol
  | .sequence => some .protocol
  | .illegalCommand => some .protocol

/-- The same outcome with its next state changed by `f`. -/
def mapState (f : State → State) : Result → Result
  | .next t => .next (f t)
  | .fault r => .fault r
  | .refused r => .refused r

/-- `s` with the mode and all writer and reader state of `u`. -/
def withFramerOf (u s : State) : State :=
  { s with
    mode := u.mode, wstate := u.wstate, wk := u.wk, out := u.out, rstate := u.rstate, rk := u.rk, cur := u.cur
    inp := u.inp, eos := u.eos, trailing := u.trailing }

/-- The four commands of the MV unit (R146 to R149). -/
def mvCommands : List Instr := [.mvpack, .mvunpack, .mvqpack, .mvunpackq]

/-- The property of a frame payload that the block depends on and does not check (R105). -/
abbrev sentinelSafe (sentinel p : Bits) : Prop := find sentinel (p ++ sentinel) 0 = some p.length

/-- The payloads of one frame. The motion payload counts only where a motion unit is due. -/
structure CodedFrame where
  payload : Bits
  motion : Bits
deriving DecidableEq, Repr

/-- The stream of the frames from frame `k` on, in mode `m` (R102). -/
def layout (sentinel : Bits) (m : BitVec 2) : Nat → List CodedFrame → Bits
  | _, [] => []
  | k, f :: fs =>
    f.payload ++ sentinel ++ (if motionDue m k then f.motion ++ sentinel else []) ++ layout sentinel m (k + 1) fs

/-- The events that write the frames from frame `k` on (R222). -/
def writeEvents (m : BitVec 2) : Nat → List CodedFrame → List HostEvent
  | _, [] => []
  | k, f :: fs =>
    [.hloadp f.payload, issue .wframe] ++ (if motionDue m k then [.hloadp f.motion, issue .wmotion] else []) ++
      writeEvents m (k + 1) fs

/-- The events that read `n` frames from frame `k` on, and each payload out of `PB` (R223). -/
def readEvents (m : BitVec 2) : Nat → Nat → List HostEvent
  | _, 0 => []
  | k, n + 1 =>
    [issue .rframe, .hreadp] ++ (if motionDue m k then [issue .rmotion, .hreadp] else []) ++ readEvents m (k + 1) n

/-- What reading the payloads of the frames from frame `k` on returns, in order (R196). -/
def delivered (m : BitVec 2) : Nat → List CodedFrame → List Reply
  | _, [] => []
  | k, f :: fs =>
    [.bits f.payload] ++ (if motionDue m k then [.bits f.motion] else []) ++ delivered m (k + 1) fs

/-- What the host's decoding loop gets of the frames from frame `k` on: each payload, and the signed field where a motion
unit is due (R223). -/
def recovered (m : BitVec 2) : Nat → List FrameData → List Reply
  | _, [] => []
  | k, f :: fs =>
    [.bits f.payload] ++ (if motionDue m k then [.ints f.field] else []) ++ recovered m (k + 1) fs

/-- The frames can be written by the block of `s` without passing a capacity. -/
structure FramesFit (s : State) (fs : List CodedFrame) : Prop where
  payloads : ∀ f ∈ fs, f.payload.length ≤ s.par.capPb
  motions : ∀ k f, fs[k]? = some f → motionDue s.mode k = true → f.motion.length = s.mlen ∧ s.mlen ≤ s.par.capPb
  stream : s.admits .out (layout s.sentinel s.mode 0 fs).length

/-- The stream of the frames can be loaded back into the block of `s`. -/
abbrev StreamLoads (s : State) (fs : List CodedFrame) : Prop := s.admits .inp (layout s.sentinel s.mode 0 fs).length

/-- A signed field of the active configuration's shape, every element packable (R140, R145). -/
abbrev State.fieldFits (s : State) (l : List Int) : Prop :=
  l.length = s.nfields ∧ ∀ v ∈ l, -(s.radius : Int) ≤ v ∧ v ≤ 2 ^ s.bitwidth - 1 - s.radius

/-- The frames that a list of payloads and signed fields becomes (R222). -/
def coded (s : State) (fs : List FrameData) : List CodedFrame :=
  fs.map fun f => ⟨f.payload, packFields (quant f.field s.radius) s.bitwidth⟩

end Sys2Proof.Machine
end

