-- ==== Sys2Proof/Certificates/Slice0/Obligations.lean ====
section
/-! DEFINITION. The statements for the provers. Each docstring names the rule of spec/ it formalises, or the rules and
the log entry it rests on. -/

open Sys2Proof Sys2Proof.Machine

/-! ## Encoding -/

/-- Every instruction is well formed and its command word decodes to it (R90, R91). -/
def Obligations.EncodedCommandDecodesToItself : Prop :=
  ∀ i : Instr, i.WellFormed = true ∧ decode (encode i) = .ok i

/-- The opcode map's words, written out from R91. -/
def Obligations.OpcodeWordsDecodeToTheirCommands : Prop :=
  decode 0b00000000000000000000000000000001#32 = .ok .cfgcommit ∧
  decode 0b00000000000000000000000000000010#32 = .ok .sreset ∧
  decode 0b00000000000000000000000000010000#32 = .ok .mvpack ∧
  decode 0b00000000000000000000000000010011#32 = .ok .mvunpackq ∧
  decode 0b00000000000000000000000000100001#32 = .ok .wframe ∧
  decode 0b00000000000000000000000000110010#32 = .ok .rmotion

/-- A word decodes to an instruction exactly when it is that instruction's command word (R91, R93): no bit is ignored. -/
def Obligations.DecodeAcceptsExactlyTheCommandWords : Prop :=
  ∀ (w : Word) (i : Instr), decode w = .ok i ↔ w = encode i

/-- R93: which words are illegal, that while `FAULT = 0` each raises ILLEGAL_COMMAND with the whole word, and that a
write of zero is one of them. -/
def Obligations.IllegalWordsRaiseIllegalCommand : Prop :=
  ∀ w : Word,
    ((w.extractLsb' 8 24 ≠ 0 ∨
        (w.extractLsb' 0 8).toNat ∉
          [0x01, 0x02, 0x10, 0x11, 0x12, 0x13, 0x20, 0x21, 0x22, 0x30, 0x31, 0x32]) ↔
      ∀ i : Instr, w ≠ encode i) ∧
    ((∀ i : Instr, w ≠ encode i) → ∀ s : State, s.fault = false →
      perform (.hwrite 0 w) s =
        .next { s with fault := true, cause := .illegalCommand, info := w.toNat }) ∧
    ∀ i : Instr, (0 : Word) ≠ encode i

/-! ## The step -/

/-- When the host's next event writes a word to `CMD` and the word decodes to a well-formed instruction, the step is that
instruction's meaning, with the event taken off the host's list (R73, R120). -/
def Obligations.StepRunsTheDecodedCommand : Prop :=
  ∀ (s : State) (w : Word) (i : Instr) (rest : List HostEvent),
    s.pending = .hwrite 0 w :: rest → decode w = .ok i → i.WellFormed = true →
      step s = exec i { s with pending := rest }

/-- With nothing to do the block is idle and keeps all its state (R255). -/
def Obligations.IdleStepKeepsAllState : Prop :=
  ∀ s : State, s.pending = [] → step s = .next s

/-- As many steps as the host has events run exactly those events in the host's order, each complete before the next
(R73). -/
def Obligations.StepsRunTheHostsEventsInOrder : Prop :=
  ∀ (es : List HostEvent) (s : State),
    Host.Core.run core es.length { s with pending := es } = performAll es { s with pending := [] }

/-- No event changes the OPEN parameters (R6, R280) or what the host has yet to do, and what reads have returned stays
returned (assumption log 1, 2, 3). -/
def Obligations.EventsKeepParametersAndHostSide : Prop :=
  ∀ (e : HostEvent) (s t : State), perform e s = .next t →
    t.par = s.par ∧ t.pending = s.pending ∧ s.replies <+: t.replies

/-- R6 with D3 and D9: no rule reads `MVW` or `HOSTBUS`, so other values of the two change the outcome of no event
(assumption log 8). -/
def Obligations.ElementWidthAndBusChangeNoOutcome : Prop :=
  ∀ (mvw : Nat) (hostBus : String) (e : HostEvent) (s : State),
    perform e (withPhysical mvw hostBus s) = mapState (withPhysical mvw hostBus) (perform e s)

/-! ## Reset and the faulted condition -/

/-- R45: after hardware reset and after SRESET, from any state, every element has its reset value; and the state a run
begins in has them too. -/
def Obligations.ResetGivesEveryElementItsValue : Prop :=
  let atReset : State → Prop := fun t =>
    t.mode = 0 ∧ t.frows = 0 ∧ t.fcols = 0 ∧ t.block = 8 ∧ t.radius = 0 ∧ t.cfgOk = false ∧
    t.brows = 0 ∧ t.bcols = 0 ∧ t.bitwidth = 0 ∧ t.nfields = 0 ∧ t.mlen = 0 ∧
    t.wstate = .closed ∧ t.wk = 0 ∧ t.out = [] ∧ t.rstate = .closed ∧ t.rk = 0 ∧ t.cur = 0 ∧ t.inp = [] ∧
    t.eos = false ∧ t.trailing = false ∧ t.pb = [] ∧ t.fb = [] ∧
    t.fault = false ∧ t.cause.code = 0 ∧ t.info = 0 ∧ t.status = 0
  atReset State.reset ∧
    ∀ s : State, ∃ t, exec .sreset s = .next t ∧ perform .hardReset s = .next t ∧ atReset t ∧ t.par = s.par

/-- In a state with no active configuration and no fault, every command but CFGCOMMIT and SRESET raises SEQUENCE with its
command word (R28, R120 step 4). -/
def Obligations.UnconfiguredCommandsRaiseSequence : Prop :=
  ∀ (i : Instr) (s : State), i ≠ .cfgcommit → i ≠ .sreset → s.fault = false → s.cfgOk = false →
    exec i s = .next { s with fault := true, cause := .sequence, info := (encode i).toNat }

/-- R246: while `FAULT = 1` every write other than SRESET and every load is ignored with no change of state, and reads
return what they always return. -/
def Obligations.FaultedBlockIgnoresAllButReset : Prop :=
  ∀ s : State, s.fault = true →
    (∀ (n : Nat) (v : Word), (n, v) ≠ (0, 0x02) → perform (.hwrite n v) s = .next s) ∧
    (∀ b, perform (.hloadp b) s = .next s) ∧ (∀ l, perform (.hloadf l) s = .next s) ∧
    (∀ src, perform (.hloadin src) s = .next s) ∧
    (∀ n, perform (.hread n) s = .next { s with replies := s.replies ++ [.value (readRegister n s)] }) ∧
    perform .hreadp s = .next { s with replies := s.replies ++ [.bits s.pb] } ∧
    perform .hreadf s = .next { s with replies := s.replies ++ [.ints s.fb] } ∧
    perform .hreadout s = .next { s with replies := s.replies ++ [.bits s.out] } ∧
    perform .hreadin s = .next { s with replies := s.replies ++ [.bits s.inp] } ∧
    perform (.hwrite 0 0x02) s = .next (resetBlock s)

/-- R245: a fault, by whatever event, sets `FAULT`, `CAUSE` and `INFO` and changes nothing else. -/
def Obligations.FaultsArePrecise : Prop :=
  ∀ (e : HostEvent) (s t : State), s.fault = false → perform e s = .next t → t.fault = true →
    t.cause ≠ .noFault ∧ t = { s with fault := true, cause := t.cause, info := t.info }

/-- Only a write to `CMD` can raise a fault (R241, R253). -/
def Obligations.OnlyCommandsRaiseFaults : Prop :=
  ∀ (e : HostEvent) (s t : State), s.fault = false → perform e s = .next t → t.fault = true → ∃ w, e = .hwrite 0 w

/-- The table of R241: whatever fault a written word raises, its row names the command, the condition and `INFO`; and
each cause has the code and the class of its row. -/
def Obligations.EveryFaultHasItsRow : Prop :=
  (∀ (w : Word) (s t : State), s.fault = false → perform (.hwrite 0 w) s = .next t → t.fault = true →
    (t.cause = .truncMotion ∧ w = encode .rmotion ∧ s.inp.length - s.cur < s.mlen ∧ t.info = s.inp.length - s.cur) ∨
    (t.cause = .truncSentinel ∧ w = encode .rmotion ∧ s.mlen ≤ s.inp.length - s.cur ∧
      s.inp.length - s.cur - s.mlen < s.slen ∧ t.info = s.inp.length - s.cur - s.mlen) ∨
    (t.cause = .truncPayload ∧ (w = encode .mvunpack ∨ w = encode .mvunpackq) ∧ s.pb.length ≠ s.mlen ∧
      t.info = s.pb.length) ∨
    (t.cause = .valueRange ∧ w = encode .mvpack ∧
      (∃ u, s.fb[t.info]? = some u ∧ (u < 0 ∨ 2 ^ s.bitwidth ≤ u)) ∧
      ∀ (j : Nat) (u : Int), j < t.info → s.fb[j]? = some u → 0 ≤ u ∧ u < 2 ^ s.bitwidth) ∨
    (t.cause = .valueRange ∧ w = encode .mvqpack ∧
      (∃ u, s.fb[t.info]? = some u ∧ (u + s.radius < 0 ∨ 2 ^ s.bitwidth ≤ u + s.radius)) ∧
      ∀ (j : Nat) (u : Int), j < t.info → s.fb[j]? = some u → 0 ≤ u + s.radius ∧ u + s.radius < 2 ^ s.bitwidth) ∨
    (t.cause = .configInvalid ∧ w = encode .cfgcommit ∧ ¬ s.configLegal ∧
      ∃ n, FirstToHold s.commitFaults n ∧ t.info = n + 1) ∨
    (t.cause = .lengthMismatch ∧ (w = encode .mvpack ∨ w = encode .mvqpack) ∧ s.fb.length ≠ s.nfields ∧
      t.info = s.fb.length) ∨
    (t.cause = .lengthMismatch ∧ w = encode .wmotion ∧ s.pb.length ≠ s.mlen ∧ t.info = s.pb.length) ∨
    (t.cause = .sentinelMismatch ∧ w = encode .rmotion ∧ memRead s (s.cur + s.mlen) s.slen ≠ s.sentinel ∧
      t.info = s.cur + s.mlen) ∨
    (t.cause = .sequence ∧ w ≠ encode .cfgcommit ∧ w ≠ encode .sreset ∧
      (s.cfgOk = false ∨ w = encode .wframe ∧ s.wstate ≠ .frame ∨ w = encode .wmotion ∧ s.wstate ≠ .motion ∨
        w = encode .rframe ∧ s.rstate ≠ .frame ∧ s.rstate ≠ .done ∨ w = encode .rmotion ∧ s.rstate ≠ .motion) ∧
      t.info = w.toNat) ∨
    (t.cause = .illegalCommand ∧ (∀ i, w ≠ encode i) ∧ t.info = w.toNat)) ∧
  [Cause.noFault, .truncMotion, .truncSentinel, .truncPayload, .valueRange, .configInvalid, .lengthMismatch,
      .sentinelMismatch, .sequence, .illegalCommand].map (fun c => (c.code.toNat, c.faultClass)) =
    [(0, none), (1, some .truncatedInput), (2, some .truncatedInput), (3, some .truncatedInput),
      (4, some .invalidArgument), (5, some .invalidArgument), (6, some .invalidArgument), (7, some .protocol),
      (8, some .protocol), (9, some .protocol)]

/-- A command stops short of a next state only where a length or a count would pass its limit (R6, D8, D10, U6,
assumption log 6): ordinary data never ends a run. -/
def Obligations.CommandsStopOnlyAtALimit : Prop :=
  ∀ (i : Instr) (s : State),
    (∃ t, exec i s = .next t) ∨
    (exec i s = .refused (.sequenceLimit .pb) ∧
      ((i = .mvpack ∨ i = .mvqpack ∨ i = .rmotion) ∧ ¬ s.admits .pb s.mlen ∨
        i = .rframe ∧ ∃ p, find s.sentinel s.inp s.cur = some p ∧ ¬ s.admits .pb (p - s.cur))) ∨
    (exec i s = .refused (.sequenceLimit .fb) ∧ (i = .mvunpack ∨ i = .mvunpackq) ∧ ¬ s.admits .fb s.nfields) ∨
    (exec i s = .refused (.sequenceLimit .out) ∧ (i = .wframe ∨ i = .wmotion) ∧
      ¬ s.admits .out (s.out.length + s.pb.length + s.slen)) ∨
    (exec i s = .refused (.countLimit .wk) ∧ (i = .wframe ∨ i = .wmotion) ∧ Config.cntMax < s.wk + 1) ∨
    (exec i s = .refused (.countLimit .rk) ∧ (i = .rframe ∨ i = .rmotion) ∧ Config.cntMax < s.rk + 1) ∨
    (exec i s = .refused (.countLimit .nfields) ∧ i = .cfgcommit ∧ Config.cntMax < s.cfgFields) ∨
    (exec i s = .refused (.countLimit .mlen) ∧ i = .cfgcommit ∧ Config.cntMax < s.cfgMlen)

/-! ## Registers and host primitives -/

/-- R27: a write to a configuration register stores the value and closes both sessions, and while `FAULT = 1` is
ignored. -/
def Obligations.ConfigurationWriteClosesSessions : Prop :=
  ∀ (s : State) (v : Word),
    (s.fault = false →
      perform (.hwrite 4 v) s =
        .next { s with mode := v.setWidth 2, cfgOk := false, wstate := .closed, rstate := .closed } ∧
      perform (.hwrite 5 v) s = .next { s with frows := v.toNat, cfgOk := false, wstate := .closed, rstate := .closed } ∧
      perform (.hwrite 6 v) s = .next { s with fcols := v.toNat, cfgOk := false, wstate := .closed, rstate := .closed } ∧
      perform (.hwrite 7 v) s = .next { s with block := v.toNat, cfgOk := false, wstate := .closed, rstate := .closed } ∧
      perform (.hwrite 8 v) s =
        .next { s with radius := v.toNat, cfgOk := false, wstate := .closed, rstate := .closed }) ∧
    (s.fault = true → ∀ n, 4 ≤ n → n ≤ 8 → perform (.hwrite n v) s = .next s)

/-- R43: what a read of each number returns, that a write to a read-only or absent register is ignored, that each
configuration register reads back what was written, and that a write to `MODE` keeps bits 1:0 of the word. -/
def Obligations.RegisterNumbersAndAccess : Prop :=
  ∀ s : State,
    (s.fault = false → ∀ (v : Word) (n : Nat), 4 ≤ n → n ≤ 8 → ∃ t, perform (.hwrite n v) s = .next t ∧ t.fault = false ∧
      readRegister n t = if n = 4 then (v.extractLsb' 0 2).toNat else v.toNat) ∧
    (∀ n, perform (.hread n) s = .next { s with replies := s.replies ++ [.value (readRegister n s)] }) ∧
    (List.range 21).map (fun n => readRegister n s) =
      [0, s.status.toNat, s.cause.code.toNat, s.info, s.mode.toNat, s.frows, s.fcols, s.block, s.radius, s.brows, s.bcols,
        s.bitwidth, s.nfields, s.mlen, s.wk, s.out.length, s.rk, s.cur, s.inp.length, s.pb.length, s.fb.length] ∧
    (∀ n, 20 < n → readRegister n s = 0) ∧
    ∀ (n : Nat) (v : Word), (1 ≤ n ∧ n ≤ 3 ∨ 9 ≤ n) → perform (.hwrite n v) s = .next s

/-- R32: the layout of `STATUS`, with the codes of the two session states (R21), and that reading it has no side
effect. -/
def Obligations.StatusWordLayout : Prop :=
  ∀ s : State,
    s.status.getLsbD 0 = s.cfgOk ∧ s.status.getLsbD 1 = s.fault ∧ s.status.getLsbD 2 = s.eos ∧
    s.status.getLsbD 3 = s.trailing ∧ s.status.extractLsb' 4 2 = s.wstate.code ∧
    s.status.extractLsb' 6 2 = s.rstate.code ∧ s.status.extractLsb' 8 24 = 0 ∧
    [WState.closed, .frame, .motion].map (·.code) = [0, 1, 2] ∧
    [RState.closed, .frame, .motion, .done].map (·.code) = [0, 1, 2, 3] ∧
    perform (.hread 1) s = .next { s with replies := s.replies ++ [.value s.status.toNat] }

/-- The loads and buffer reads of R44 with `FAULT = 0`. A load completes within the capacity of its sequence (R6,
assumption log 6). -/
def Obligations.HostLoadsAndReads : Prop :=
  ∀ s : State, s.fault = false →
    (∀ b : Bits, s.admits .pb b.length → perform (.hloadp b) s = .next { s with pb := b }) ∧
    (∀ l : List Int, s.admits .fb l.length → perform (.hloadf l) s = .next { s with fb := l }) ∧
    (∀ b : Bits, s.admits .inp b.length → perform (.hloadin (.bits b)) s =
      .next { s with inp := b, cur := 0, rk := 0, rstate := .closed, eos := false, trailing := false }) ∧
    (s.admits .inp s.out.length → perform (.hloadin .readout) s =
      .next { s with inp := s.out, cur := 0, rk := 0, rstate := .closed, eos := false, trailing := false }) ∧
    perform .hreadp s = .next { s with replies := s.replies ++ [.bits s.pb] } ∧
    perform .hreadf s = .next { s with replies := s.replies ++ [.ints s.fb] } ∧
    perform .hreadout s = .next { s with replies := s.replies ++ [.bits s.out] } ∧
    perform .hreadin s = .next { s with replies := s.replies ++ [.bits s.inp] }

/-- R29, R30, R31: the derived configuration is 0 without an active configuration; with one, the grid divides the frame
exactly, the width is `bw(RADIUS)`, the number of fields is even and at least 2, and the payload is empty exactly at
radius 0. -/
def Obligations.DerivedConfiguration : Prop :=
  ∀ s : State,
    (s.cfgOk = false → s.brows = 0 ∧ s.bcols = 0 ∧ s.bitwidth = 0 ∧ s.nfields = 0 ∧ s.mlen = 0) ∧
    (s.cfgOk = true → s.configLegal →
      s.brows * s.block = s.frows ∧ s.bcols * s.block = s.fcols ∧ s.bitwidth = bw s.radius ∧
      s.nfields = s.brows * s.bcols * 2 ∧ s.mlen = s.nfields * s.bitwidth ∧
      2 ≤ s.nfields ∧ s.nfields % 2 = 0 ∧ (s.bitwidth = 0 ↔ s.radius = 0) ∧ (s.mlen = 0 ↔ s.radius = 0))

/-! ## System commands -/

/-- R121: the first check of CFGCOMMIT to fail, in the order of the rule, raises CONFIG_INVALID with its number; a
configuration that passes all six, and whose counts stay within `2^CNTW - 1` (R6), becomes active and both sessions
close. -/
def Obligations.CfgcommitChecksThenActivates : Prop :=
  ∀ s : State, s.fault = false →
    (∀ n, FirstToHold s.commitFaults n →
      exec .cfgcommit s = .next { s with fault := true, cause := .configInvalid, info := n + 1 }) ∧
    ((∀ (m : Nat) (d : Prop), s.commitFaults[m]? = some d → ¬ d) →
      s.cfgFields ≤ Config.cntMax → s.cfgMlen ≤ Config.cntMax →
      ∃ t, exec .cfgcommit s = .next t ∧ t = { s with cfgOk := true, wstate := .closed, rstate := .closed } ∧
        t.brows * s.block = s.frows ∧ t.bcols * s.block = s.fcols ∧ t.bitwidth = bw s.radius ∧
        t.nfields = t.brows * t.bcols * 2 ∧ t.mlen = t.nfields * t.bitwidth)

/-! ## Notation and pure functions -/

/-- R10: the bits of `enc`, the sum that `val` is, and that they are inverse. -/
def Obligations.FieldCodingIsTheBinaryNumeral : Prop :=
  (∀ w u : Nat, u < 2 ^ w → (enc w u).length = w ∧ val (enc w u) = u ∧
    ∀ j, j < w → (enc w u)[j]? = some (decide (u / 2 ^ (w - 1 - j) % 2 = 1))) ∧
  (∀ s : Bits, val s = ((List.range s.length).map fun j => (s.getD j false).toNat * 2 ^ (s.length - 1 - j)).sum ∧
    val s < 2 ^ s.length ∧ enc s.length (val s) = s) ∧
  enc 0 0 = [] ∧ val [] = 0

/-- R11: `bw(R)` is the least width, with the consequences the rule states. -/
def Obligations.FieldWidthIsLeast : Prop :=
  (∀ r : Nat, 2 * r + 1 ≤ 2 ^ bw r ∧ ∀ w, 2 * r + 1 ≤ 2 ^ w → bw r ≤ w) ∧
  bw 0 = 0 ∧ (∀ r, 1 ≤ r → bw r = (Nat.digits 2 (2 * r)).length) ∧ (∀ r r', r ≤ r' → bw r ≤ bw r') ∧ bw 7 = 4

/-- R12: `find` gives the least index at which the whole pattern stands, or none when there is none. -/
def Obligations.FindGivesTheFirstOccurrence : Prop :=
  ∀ (pat s : Bits) (c : Nat), pat ≠ [] → c ≤ s.length →
    (∀ p, find pat s c = some p ↔
      (c ≤ p ∧ p + pat.length ≤ s.length ∧ slice s p (p + pat.length) = pat ∧
        ∀ q, c ≤ q → q < p → q + pat.length ≤ s.length → slice s q (q + pat.length) ≠ pat)) ∧
    (find pat s c = none ↔ ∀ q, c ≤ q → q + pat.length ≤ s.length → slice s q (q + pat.length) ≠ pat)

/-- R141: `Pack` succeeds exactly when every element fits, with `len(l) * w` bits that are the fields in order, and fails
at the least index that does not fit. -/
def Obligations.PackWritesFieldsOrFailsAtTheFirst : Prop :=
  ∀ (l : List Int) (w : Nat),
    ((∀ u ∈ l, 0 ≤ u ∧ u < 2 ^ w) →
      ∃ b, pack l w = .ok b ∧ b.length = l.length * w ∧
        ∀ (i : Nat) (u : Int), l[i]? = some u → slice b (i * w) ((i + 1) * w) = enc w u.toNat) ∧
    ∀ i, pack l w = .error i ↔
      ((∃ u, l[i]? = some u ∧ (u < 0 ∨ 2 ^ w ≤ u)) ∧ ∀ (j : Nat) (u : Int), j < i → l[j]? = some u → 0 ≤ u ∧ u < 2 ^ w)

/-- R143: `Unpack` undoes `Pack`, and `Pack` undoes `Unpack`. -/
def Obligations.PackAndUnpackRoundTrip : Prop :=
  (∀ (w n : Nat) (l : List Int), l.length = n → (∀ u ∈ l, 0 ≤ u ∧ u ≤ 2 ^ w - 1) →
    ∃ b, pack l w = .ok b ∧ unpack b w n = .ok l) ∧
  (∀ (w n : Nat) (s : Bits), s.length = n * w → ∃ l, unpack s w n = .ok l ∧ pack l w = .ok s)

/-- R145: the signed range that packs, and how it lies about the window. -/
def Obligations.SignedRangeAccepted : Prop :=
  (∀ (l : List Int) (r : Nat),
    (∃ b, pack (quant l r) (bw r) = .ok b) ↔ ∀ v ∈ l, -(r : Int) ≤ v ∧ v ≤ 2 ^ bw r - 1 - r) ∧
  (∀ r : Nat, (r : Int) ≤ 2 ^ bw r - 1 - r ∧ ((r : Int) < 2 ^ bw r - 1 - r ↔ 2 * r + 1 < 2 ^ bw r)) ∧
  (∀ v : Int, (∃ b, pack (quant [v] 7) (bw 7) = .ok b) ↔ -7 ≤ v ∧ v ≤ 8) ∧
  pack (quant [8] 7) (bw 7) = .ok (enc 4 15)

/-- The field of row `r`, column `c` and component `k` has a number of its own, and these numbers are exactly those of
the fields (R98, R140). -/
def Obligations.FieldNumbersCoverTheGrid : Prop :=
  ∀ s : State, s.cfgOk = true → ∀ i, i < s.nfields ↔
    ∃ r c k, r < s.brows ∧ c < s.bcols ∧ k < 2 ∧ s.fieldIndex r c k = i ∧
      ∀ r' c' k', c' < s.bcols → k' < 2 → s.fieldIndex r' c' k' = i → r' = r ∧ c' = c ∧ k' = k

/-- The recommended byte packing (R66), whatever the padding that fills the last byte holds (U16): bit `i` of the stream
stands in bit `7 - (i mod 8)` of byte `floor(i / 8)`, and the bytes give back the stream and the padding. -/
def Obligations.ByteStorageKeepsTheStream : Prop :=
  ∀ b pad : Bits, 8 ∣ b.length + pad.length →
    8 * (bytesOf b pad).length = b.length + pad.length ∧ streamOf (bytesOf b pad) = b ++ pad ∧
    ∀ i, i < b.length → (bytesOf b pad)[i / 8]?.map (·.getLsbD (7 - i % 8)) = b[i]?

/-! ## The MV unit -/

/-- R146: MVPACK. Without a configuration it faults; then the length of `FB` is checked, then the range at the least
index; and where all is well bit `j` of field `i` is that digit of `FB[i]`, and only `PB` changes. -/
def Obligations.MvpackPacksTheField : Prop :=
  ∀ s : State, s.fault = false →
    (s.cfgOk = false → exec .mvpack s = .next { s with fault := true, cause := .sequence, info := 0x10 }) ∧
    (s.cfgOk = true → s.fb.length ≠ s.nfields →
      exec .mvpack s = .next { s with fault := true, cause := .lengthMismatch, info := s.fb.length }) ∧
    (s.cfgOk = true → s.fb.length = s.nfields →
      (∀ (n : Nat) (v : Int), s.fb[n]? = some v → (v < 0 ∨ 2 ^ s.bitwidth ≤ v) →
        (∀ (j : Nat) (u : Int), j < n → s.fb[j]? = some u → 0 ≤ u ∧ u < 2 ^ s.bitwidth) →
        exec .mvpack s = .next { s with fault := true, cause := .valueRange, info := n }) ∧
      ((∀ u ∈ s.fb, 0 ≤ u ∧ u < 2 ^ s.bitwidth) → s.admits .pb s.mlen →
        ∃ b : Bits, exec .mvpack s = .next { s with pb := b } ∧ b.length = s.mlen ∧
          ∀ (i j : Nat) (u : Int), s.fb[i]? = some u → j < s.bitwidth →
            b[i * s.bitwidth + j]? = some (decide (u / 2 ^ (s.bitwidth - 1 - j) % 2 = 1))))

/-- R148: MVQPACK. As MVPACK with every check and every digit taken of `FB[i] + RADIUS`, while `FB` keeps its signed
values. -/
def Obligations.MvqpackPacksTheShiftedField : Prop :=
  ∀ s : State, s.fault = false →
    (s.cfgOk = false → exec .mvqpack s = .next { s with fault := true, cause := .sequence, info := 0x12 }) ∧
    (s.cfgOk = true → s.fb.length ≠ s.nfields →
      exec .mvqpack s = .next { s with fault := true, cause := .lengthMismatch, info := s.fb.length }) ∧
    (s.cfgOk = true → s.fb.length = s.nfields →
      (∀ (n : Nat) (v : Int), s.fb[n]? = some v → (v + s.radius < 0 ∨ 2 ^ s.bitwidth ≤ v + s.radius) →
        (∀ (j : Nat) (u : Int), j < n → s.fb[j]? = some u → 0 ≤ u + s.radius ∧ u + s.radius < 2 ^ s.bitwidth) →
        exec .mvqpack s = .next { s with fault := true, cause := .valueRange, info := n }) ∧
      ((∀ v ∈ s.fb, -(s.radius : Int) ≤ v ∧ v ≤ 2 ^ s.bitwidth - 1 - s.radius) → s.admits .pb s.mlen →
        ∃ b : Bits, exec .mvqpack s = .next { s with pb := b } ∧ b.length = s.mlen ∧
          ∀ (i j : Nat) (v : Int), s.fb[i]? = some v → j < s.bitwidth →
            b[i * s.bitwidth + j]? = some (decide ((v + s.radius) / 2 ^ (s.bitwidth - 1 - j) % 2 = 1))))

/-- R147: MVUNPACK. A payload of another length than `MLEN` faults; otherwise element `i` is field `i` read as an unsigned
number, no bit pattern is refused, and only `FB` changes. -/
def Obligations.MvunpackReadsTheFields : Prop :=
  ∀ s : State, s.fault = false →
    (s.cfgOk = false → exec .mvunpack s = .next { s with fault := true, cause := .sequence, info := 0x11 }) ∧
    (s.cfgOk = true → s.pb.length ≠ s.mlen →
      exec .mvunpack s = .next { s with fault := true, cause := .truncPayload, info := s.pb.length }) ∧
    (s.cfgOk = true → s.pb.length = s.mlen → s.admits .fb s.nfields →
      ∃ l : List Int, exec .mvunpack s = .next { s with fb := l } ∧ l.length = s.nfields ∧
        ∀ i, i < s.nfields → ∃ u : Int, l[i]? = some u ∧ 0 ≤ u ∧ u ≤ 2 ^ s.bitwidth - 1 ∧
          u = val (slice s.pb (i * s.bitwidth) ((i + 1) * s.bitwidth)))

/-- R149: MVUNPACKQ. As MVUNPACK, with `RADIUS` taken from every element. -/
def Obligations.MvunpackqReadsTheSignedFields : Prop :=
  ∀ s : State, s.fault = false →
    (s.cfgOk = false → exec .mvunpackq s = .next { s with fault := true, cause := .sequence, info := 0x13 }) ∧
    (s.cfgOk = true → s.pb.length ≠ s.mlen →
      exec .mvunpackq s = .next { s with fault := true, cause := .truncPayload, info := s.pb.length }) ∧
    (s.cfgOk = true → s.pb.length = s.mlen → s.admits .fb s.nfields →
      ∃ l : List Int, exec .mvunpackq s = .next { s with fb := l } ∧ l.length = s.nfields ∧
        ∀ i, i < s.nfields → ∃ v : Int, l[i]? = some v ∧ -(s.radius : Int) ≤ v ∧
          v ≤ 2 ^ s.bitwidth - 1 - s.radius ∧
          v = (val (slice s.pb (i * s.bitwidth) ((i + 1) * s.bitwidth)) : Int) - s.radius)

/-- D9's remark on a physical block: with `MVW >= BITWIDTH + 1` a field-buffer element can hold every value that MVUNPACK
or MVUNPACKQ delivers. What an element of `MVW` bits holds is the model's reading (assumption log 8). -/
def Obligations.ElementWidthHoldsUnpackedValues : Prop :=
  ∀ s t : State, s.ready → s.bitwidth + 1 ≤ s.par.mvw →
    exec .mvunpack s = .next t ∨ exec .mvunpackq s = .next t → t.fault = false → ∀ v ∈ t.fb, t.par.holds v

/-- R152: the command round trips, within the capacities of the buffers. -/
def Obligations.MvCommandRoundTrips : Prop :=
  ∀ s : State, s.ready → s.admits .pb s.mlen → s.admits .fb s.nfields →
    (s.fb.length = s.nfields → (∀ u ∈ s.fb, 0 ≤ u ∧ u ≤ 2 ^ s.bitwidth - 1) →
      ∃ t, performAll [issue .mvpack, issue .mvunpack] s = .next t ∧ t.fault = false ∧ t.fb = s.fb) ∧
    (s.fb.length = s.nfields → (∀ v ∈ s.fb, -(s.radius : Int) ≤ v ∧ v ≤ 2 ^ s.bitwidth - 1 - s.radius) →
      ∃ t u, performAll [issue .mvqpack, issue .mvunpackq] s = .next t ∧ t.fault = false ∧ t.fb = s.fb ∧
        performAll [.hloadf (quant s.fb s.radius), issue .mvpack] s = .next u ∧ u.fault = false ∧ u.pb = t.pb) ∧
    (s.pb.length = s.mlen →
      (∃ t, performAll [issue .mvunpack, issue .mvpack] s = .next t ∧ t.fault = false ∧ t.pb = s.pb) ∧
      ∃ t, performAll [issue .mvunpackq, issue .mvqpack] s = .next t ∧ t.fault = false ∧ t.pb = s.pb)

/-- R151: the MV commands are never out of sequence on a configured block, and neither read nor write `MODE` or any
writer or reader state. -/
def Obligations.MvCommandsAreBlindToTheFramer : Prop :=
  ∀ i ∈ mvCommands, ∀ s : State,
    (∀ u : State, exec i (withFramerOf u s) = mapState (withFramerOf u) (exec i s)) ∧
    (s.ready → ∀ t, exec i s = .next t → t.fault = true → t.cause ≠ .sequence)

/-! ## The framer writer -/

/-- R171, R191: WOPEN and ROPEN, in every session state, and without a configuration. -/
def Obligations.OpenCommandsStartTheirSessions : Prop :=
  ∀ s : State, s.fault = false →
    (s.cfgOk = true →
      exec .wopen s = .next { s with out := [], wk := 0, wstate := .frame } ∧
      exec .ropen s = .next { s with cur := 0, rk := 0, rstate := .frame, eos := false, trailing := false }) ∧
    (s.cfgOk = false →
      exec .wopen s = .next { s with fault := true, cause := .sequence, info := 0x20 } ∧
      exec .ropen s = .next { s with fault := true, cause := .sequence, info := 0x30 })

/-- R172: WFRAME. Out of turn it faults; otherwise the frame unit is appended, and a motion unit is awaited or the frame
counted. -/
def Obligations.WframeAppendsTheFrameUnit : Prop :=
  ∀ s : State, s.fault = false →
    (s.cfgOk = false ∨ s.wstate ≠ .frame →
      exec .wframe s = .next { s with fault := true, cause := .sequence, info := 0x21 }) ∧
    (s.cfgOk = true → s.wstate = .frame → s.admits .out (s.out.length + s.pb.length + s.slen) →
      (s.mode = 2 ∧ 0 < s.wk →
        exec .wframe s = .next { s with out := s.out ++ (s.pb ++ s.sentinel), wstate := .motion }) ∧
      (¬ (s.mode = 2 ∧ 0 < s.wk) → s.wk + 1 ≤ Config.cntMax →
        exec .wframe s = .next { s with out := s.out ++ (s.pb ++ s.sentinel), wk := s.wk + 1 }))

/-- R173: WMOTION. Out of turn it faults, then on a payload of another length than `MLEN`; otherwise the motion unit is
appended and the frame counted. -/
def Obligations.WmotionAppendsTheMotionUnit : Prop :=
  ∀ s : State, s.fault = false →
    (s.cfgOk = false ∨ s.wstate ≠ .motion →
      exec .wmotion s = .next { s with fault := true, cause := .sequence, info := 0x22 }) ∧
    (s.cfgOk = true → s.wstate = .motion → s.pb.length ≠ s.mlen →
      exec .wmotion s = .next { s with fault := true, cause := .lengthMismatch, info := s.pb.length }) ∧
    (s.cfgOk = true → s.wstate = .motion → s.pb.length = s.mlen →
      s.admits .out (s.out.length + s.mlen + s.slen) → s.wk + 1 ≤ Config.cntMax →
      exec .wmotion s =
        .next { s with out := s.out ++ (s.pb ++ s.sentinel), wstate := .frame, wk := s.wk + 1 })

/-- R174: the writer's transitions, complete. An event of the table moves `WSTATE` and `WK` as its row says; a writer
command in a state without a row for it raises SEQUENCE; a fault, an ignored event and every other event leave both
alone. -/
def Obligations.WriterTransitionsAreComplete : Prop :=
  ∀ (e : HostEvent) (s t : State), perform e s = .next t →
    (e = .hardReset ∨ e = issue .sreset → t.wstate = .closed ∧ t.wk = 0) ∧
    (s.fault = true → e ≠ .hardReset → e ≠ issue .sreset → t.wstate = s.wstate ∧ t.wk = s.wk) ∧
    (s.fault = false →
      (e = issue .wframe → s.wstate ≠ .frame → t.fault = true ∧ t.cause = .sequence) ∧
      (e = issue .wmotion → s.wstate ≠ .motion → t.fault = true ∧ t.cause = .sequence) ∧
      (e = issue .wopen → s.cfgOk = false → t.fault = true ∧ t.cause = .sequence) ∧
      (t.fault = true → t.wstate = s.wstate ∧ t.wk = s.wk) ∧
      (t.fault = false →
        (∀ n v, e = .hwrite n v → 4 ≤ n → n ≤ 8 → t.wstate = .closed ∧ t.wk = s.wk) ∧
        (e = issue .cfgcommit → t.wstate = .closed ∧ t.wk = s.wk) ∧
        (e = issue .wopen → t.wstate = .frame ∧ t.wk = 0) ∧
        (e = issue .wframe → s.mode = 2 ∧ 0 < s.wk → t.wstate = .motion ∧ t.wk = s.wk) ∧
        (e = issue .wframe → s.mode ≠ 2 ∨ s.wk = 0 → t.wstate = .frame ∧ t.wk = s.wk + 1) ∧
        (e = issue .wmotion → s.pb.length = s.mlen ∧ t.wstate = .frame ∧ t.wk = s.wk + 1) ∧
        ((∀ n v, e = .hwrite n v → ¬ (4 ≤ n ∧ n ≤ 8)) →
          e ∉ [.hardReset, issue .sreset, issue .cfgcommit, issue .wopen, issue .wframe, issue .wmotion] →
          t.wstate = s.wstate ∧ t.wk = s.wk)))

/-- Where a store goes (R62, R124): WFRAME and WMOTION put `PB` and the sentinel at the address `storeAddress` gives and
leave every other bit of every space as it was; every other command but WOPEN and SRESET leaves all of `OUT`. -/
def Obligations.StoresGoToTheEndOfOut : Prop :=
  ∀ (i : Instr) (s t : State), exec i s = .next t → t.fault = s.fault →
    (i = .wframe ∨ i = .wmotion → s.ready →
      (∀ k, k < s.pb.length + s.slen → bitAt t .out (storeAddress s + k) = (s.pb ++ s.sentinel)[k]?) ∧
      (∀ a, a < storeAddress s ∨ storeAddress s + (s.pb.length + s.slen) ≤ a → bitAt t .out a = bitAt s .out a) ∧
      ∀ a : Nat, bitAt t .pb a = bitAt s .pb a ∧ bitAt t .inp a = bitAt s .inp a ∧ t.fb[a]? = s.fb[a]?) ∧
    (i ≠ .wframe → i ≠ .wmotion → i ≠ .wopen → i ≠ .sreset → ∀ a, bitAt t .out a = bitAt s .out a)

/-- Which commands may write which space (R60, R68), and that none but SRESET writes a configuration register or the
input stream. -/
def Obligations.CommandsWriteOnlyTheirSpaces : Prop :=
  ∀ (i : Instr) (s t : State), exec i s = .next t → i ≠ .sreset →
    t.mode = s.mode ∧ t.frows = s.frows ∧ t.fcols = s.fcols ∧ t.block = s.block ∧ t.radius = s.radius ∧
    (∀ a, bitAt t .inp a = bitAt s .inp a) ∧
    (i ∉ [Instr.mvpack, .mvqpack, .rframe, .rmotion] → ∀ a, bitAt t .pb a = bitAt s .pb a) ∧
    (i ∉ [Instr.mvunpack, .mvunpackq] → ∀ a : Nat, t.fb[a]? = s.fb[a]?) ∧
    (i ∉ [Instr.wopen, .wframe, .wmotion] → t.wk = s.wk) ∧
    (i ∉ [Instr.ropen, .rframe, .rmotion] →
      t.rk = s.rk ∧ t.cur = s.cur ∧ t.eos = s.eos ∧ t.trailing = s.trailing) ∧
    (i ≠ .cfgcommit → t.cfgOk = s.cfgOk)

/-! ## The framer reader -/

/-- R192: RFRAME. Out of turn it faults; it reads the unit up to the first sentinel, or ends the stream when there is
none; and once the stream has ended it does nothing. -/
def Obligations.RframeReadsTheNextUnitOrEnds : Prop :=
  ∀ s : State, s.fault = false →
    (s.cfgOk = false ∨ s.rstate = .closed ∨ s.rstate = .motion →
      exec .rframe s = .next { s with fault := true, cause := .sequence, info := 0x31 }) ∧
    (s.cfgOk = true → s.rstate = .frame → ∀ p, find s.sentinel s.inp s.cur = some p → s.admits .pb (p - s.cur) →
      (s.mode = 2 ∧ 0 < s.rk →
        exec .rframe s = .next { s with pb := slice s.inp s.cur p, cur := p + s.slen, rstate := .motion }) ∧
      (¬ (s.mode = 2 ∧ 0 < s.rk) → s.rk + 1 ≤ Config.cntMax →
        exec .rframe s = .next { s with pb := slice s.inp s.cur p, cur := p + s.slen, rk := s.rk + 1 })) ∧
    (s.cfgOk = true → s.rstate = .frame → find s.sentinel s.inp s.cur = none →
      exec .rframe s = .next { s with rstate := .done, eos := true, trailing := decide (s.cur < s.inp.length) }) ∧
    (s.cfgOk = true → s.rstate = .done → exec .rframe s = .next s)

/-- R193: RMOTION. Out of turn it faults; then its three faults on the input, in their order; and otherwise the field is
taken by its length and the sentinel behind it consumed. -/
def Obligations.RmotionTakesTheFieldByLength : Prop :=
  ∀ s : State, s.fault = false →
    (s.cfgOk = false ∨ s.rstate ≠ .motion →
      exec .rmotion s = .next { s with fault := true, cause := .sequence, info := 0x32 }) ∧
    (s.cfgOk = true → s.rstate = .motion → s.cur ≤ s.inp.length →
      let rem := s.inp.length - s.cur
      (rem < s.mlen → exec .rmotion s = .next { s with fault := true, cause := .truncMotion, info := rem }) ∧
      (s.mlen ≤ rem → rem - s.mlen < s.slen →
        exec .rmotion s = .next { s with fault := true, cause := .truncSentinel, info := rem - s.mlen }) ∧
      (s.mlen + s.slen ≤ rem → slice s.inp (s.cur + s.mlen) (s.cur + s.mlen + s.slen) ≠ s.sentinel →
        exec .rmotion s = .next { s with fault := true, cause := .sentinelMismatch, info := s.cur + s.mlen }) ∧
      (s.mlen + s.slen ≤ rem → slice s.inp (s.cur + s.mlen) (s.cur + s.mlen + s.slen) = s.sentinel →
        s.admits .pb s.mlen → s.rk + 1 ≤ Config.cntMax →
        exec .rmotion s =
          .next { s with
            pb := slice s.inp s.cur (s.cur + s.mlen), cur := s.cur + s.mlen + s.slen, rstate := .frame,
            rk := s.rk + 1 }))

/-- R194: the reader's transitions, complete. An event of the table moves `RSTATE` and `RK` as its row says; a reader
command in a state without a row for it raises SEQUENCE; a fault, an ignored event and every other event leave both
alone. -/
def Obligations.ReaderTransitionsAreComplete : Prop :=
  ∀ (e : HostEvent) (s t : State), perform e s = .next t →
    (e = .hardReset ∨ e = issue .sreset → t.rstate = .closed ∧ t.rk = 0) ∧
    (s.fault = true → e ≠ .hardReset → e ≠ issue .sreset → t.rstate = s.rstate ∧ t.rk = s.rk) ∧
    (s.fault = false →
      (e = issue .rframe → s.rstate = .closed ∨ s.rstate = .motion → t.fault = true ∧ t.cause = .sequence) ∧
      (e = issue .rmotion → s.rstate ≠ .motion → t.fault = true ∧ t.cause = .sequence) ∧
      (e = issue .ropen → s.cfgOk = false → t.fault = true ∧ t.cause = .sequence) ∧
      (e = issue .rmotion → s.rstate = .motion → s.cfgOk = true → s.cur ≤ s.inp.length →
        (t.fault = true ↔ s.inp.length < s.cur + s.mlen + s.slen ∨
          slice s.inp (s.cur + s.mlen) (s.cur + s.mlen + s.slen) ≠ s.sentinel)) ∧
      (t.fault = true → t.rstate = s.rstate ∧ t.rk = s.rk) ∧
      (t.fault = false →
        (∀ src, e = .hloadin src → t.rstate = .closed ∧ t.rk = 0) ∧
        (∀ n v, e = .hwrite n v → 4 ≤ n → n ≤ 8 → t.rstate = .closed ∧ t.rk = s.rk) ∧
        (e = issue .cfgcommit → t.rstate = .closed ∧ t.rk = s.rk) ∧
        (e = issue .ropen → t.rstate = .frame ∧ t.rk = 0) ∧
        (e = issue .rframe → s.rstate = .frame → find s.sentinel s.inp s.cur ≠ none →
          (s.mode = 2 ∧ 0 < s.rk → t.rstate = .motion ∧ t.rk = s.rk) ∧
          (s.mode ≠ 2 ∨ s.rk = 0 → t.rstate = .frame ∧ t.rk = s.rk + 1)) ∧
        (e = issue .rframe → s.rstate = .frame → find s.sentinel s.inp s.cur = none →
          t.rstate = .done ∧ t.rk = s.rk) ∧
        (e = issue .rframe → s.rstate = .done → t.rstate = .done ∧ t.rk = s.rk) ∧
        (e = issue .rmotion → t.rstate = .frame ∧ t.rk = s.rk + 1) ∧
        ((∀ n v, e = .hwrite n v → ¬ (4 ≤ n ∧ n ≤ 8)) → (∀ src, e ≠ .hloadin src) →
          e ∉ [.hardReset, issue .sreset, issue .cfgcommit, issue .ropen, issue .rframe, issue .rmotion] →
          t.rstate = s.rstate ∧ t.rk = s.rk)))

/-- The block reads `IN` only at indices from `CUR` on and never writes it (R61): two inputs of one length that agree from
`CUR` on give the same outcome but for the input itself. SRESET, which empties `IN`, is apart. -/
def Obligations.CommandsReadInputOnlyFromTheCursor : Prop :=
  ∀ (i : Instr) (s : State) (b : Bits), i ≠ .sreset → b.length = s.inp.length →
    (∀ a, s.cur ≤ a → b[a]? = s.inp[a]?) →
      exec i { s with inp := b } = mapState (fun t => { t with inp := b }) (exec i s)

/-- R197: every read that succeeds moves `CUR` forward by at least `SLEN >= 1` and never past `INLEN`, and the host's
decoding loop, which the model writes as `decodeLoop` (assumption log 16), ends within `floor(INLEN / SLEN) + 1`
rounds. -/
def Obligations.EndOfStreamIsReached : Prop :=
  ∀ s : State, s.Inv → s.ready →
    1 ≤ s.slen ∧
    (∀ i t, i = .rframe ∨ i = .rmotion → exec i s = .next t → t.fault = false → t.eos = s.eos → s.rstate ≠ .done →
      t.rstate ≠ .done → s.cur + s.slen ≤ t.cur ∧ t.cur ≤ t.inp.length) ∧
    ∀ n t, s.inp.length / s.slen < n → decodeLoop n s ≠ .unfinished t

/-- What RFRAME makes of padding bits that a host has put behind the last unit of the stream (R66, U16): where no sentinel
stands in them the stream ends, with `TRAILING` telling that there are some; where one does, the bits before it are read
as one more frame unit, within the capacity of `PB` and the limit of `RK`. -/
def Obligations.PaddingEndsTheStreamOrIsOneMoreUnit : Prop :=
  ∀ (s : State) (units pad : Bits), s.ready → s.rstate = .frame → s.inp = units ++ pad → s.cur = units.length →
    (find s.sentinel pad 0 = none →
      exec .rframe s = .next { s with rstate := .done, eos := true, trailing := decide (pad ≠ []) }) ∧
    ∀ p, find s.sentinel pad 0 = some p → s.admits .pb p → s.rk + 1 ≤ Config.cntMax →
      ∃ t, exec .rframe s = .next t ∧ t.fault = false ∧ t.eos = s.eos ∧ t.pb = pad.take p ∧
        t.cur = units.length + p + s.slen

/-! ## Whole machine -/

/-- The invariant of the block's runs holds at reset (R45). -/
def Obligations.InvariantHoldsAtReset : Prop := State.reset.Inv

/-- Every step from a state with the invariant leads to one with it. -/
def Obligations.StepKeepsInvariant : Prop :=
  ∀ s t : State, s.Inv → step s = .next t → t.Inv

/-- R175: from WOPEN, writing `N` frames that fit `PB` and `OUT` gives the stream of R102, with `WK = N`,
`WSTATE = W_FRAME`, and the length the rule states. -/
def Obligations.WriterWritesTheStreamLayout : Prop :=
  ∀ (s : State) (fs : List CodedFrame), s.ready → FramesFit s fs →
    ∃ t, performAll (issue .wopen :: writeEvents s.mode 0 fs) s = .next t ∧ t.fault = false ∧
      t.out = layout s.sentinel s.mode 0 fs ∧ t.wk = fs.length ∧ t.wstate = .frame ∧
      (s.mode ≠ 2 → t.out.length = (fs.map fun f => f.payload.length).sum + fs.length * s.slen) ∧
      (s.mode = 2 → t.out.length =
        (fs.map fun f => f.payload.length).sum + fs.length * s.slen + (fs.length - 1) * (s.mlen + s.slen))

/-- R196: what the writer wrote, the reader reads back: every payload in order, then end-of-stream with nothing left. That
the payloads stand in `replies`, and that loading `OUT` into `IN` adds no reply, is the model's choice (assumption log 3
and 14). -/
def Obligations.ReaderRecoversWhatTheWriterWrote : Prop :=
  ∀ (s : State) (fs : List CodedFrame), s.ready → FramesFit s fs → StreamLoads s fs →
    (∀ f ∈ fs, sentinelSafe s.sentinel f.payload) →
    ∃ t u, performAll (issue .wopen :: writeEvents s.mode 0 fs ++ [.hloadin .readout, issue .ropen] ++
          readEvents s.mode 0 fs.length) s = .next t ∧
      t.fault = false ∧ t.replies = s.replies ++ delivered s.mode 0 fs ∧ t.rk = fs.length ∧ t.cur = t.inp.length ∧
      exec .rframe t = .next u ∧ u.fault = false ∧ u.eos = true ∧ u.trailing = false ∧ u.rstate = .done

/-- The whole way (R222, R223, R196, R152): the host encodes frames with signed motion fields, loads the stream back, and
its decoding loop ends normally with every payload and every field as they were. The two sequences are the model's
`encodeSequence` and `decodeLoop` (assumption log 16), and what the loop has read stands in `replies` (log 3). -/
def Obligations.DecodingLoopRecoversEncodedFrames : Prop :=
  ∀ (s : State) (fs : List FrameData), s.ready → FramesFit s (coded s fs) → StreamLoads s (coded s fs) →
    (∀ k f, fs[k]? = some f → motionDue s.mode k = true → s.fieldFits f.field ∧ s.admits .fb s.nfields) →
    (∀ f ∈ fs, sentinelSafe s.sentinel f.payload) →
    ∃ t u, performAll (encodeSequence s.mode fs ++ [.hloadin .readout, issue .ropen]) s = .next t ∧
      decodeLoop (fs.length + 1) t = .ended u ∧
      u.replies = t.replies ++ recovered s.mode 0 fs ∧ u.rk = fs.length ∧ u.cur = u.inp.length ∧ u.trailing = false
end

