-- ==== Sys2Proof/Laws/State.lean ====
section
/-! SUPPORT. One lemma per field for each named update of the state, so that no proof unfolds an update. -/

namespace Sys2Proof.Machine

@[simp] theorem raise_mode (s : State) (c : Cause) (n : Nat) : (raise s c n).mode = s.mode := rfl
@[simp] theorem raise_frows (s : State) (c : Cause) (n : Nat) : (raise s c n).frows = s.frows := rfl
@[simp] theorem raise_fcols (s : State) (c : Cause) (n : Nat) : (raise s c n).fcols = s.fcols := rfl
@[simp] theorem raise_block (s : State) (c : Cause) (n : Nat) : (raise s c n).block = s.block := rfl
@[simp] theorem raise_radius (s : State) (c : Cause) (n : Nat) : (raise s c n).radius = s.radius := rfl
@[simp] theorem raise_cfgOk (s : State) (c : Cause) (n : Nat) : (raise s c n).cfgOk = s.cfgOk := rfl
@[simp] theorem raise_wstate (s : State) (c : Cause) (n : Nat) : (raise s c n).wstate = s.wstate := rfl
@[simp] theorem raise_wk (s : State) (c : Cause) (n : Nat) : (raise s c n).wk = s.wk := rfl
@[simp] theorem raise_out (s : State) (c : Cause) (n : Nat) : (raise s c n).out = s.out := rfl
@[simp] theorem raise_rstate (s : State) (c : Cause) (n : Nat) : (raise s c n).rstate = s.rstate := rfl
@[simp] theorem raise_rk (s : State) (c : Cause) (n : Nat) : (raise s c n).rk = s.rk := rfl
@[simp] theorem raise_cur (s : State) (c : Cause) (n : Nat) : (raise s c n).cur = s.cur := rfl
@[simp] theorem raise_inp (s : State) (c : Cause) (n : Nat) : (raise s c n).inp = s.inp := rfl
@[simp] theorem raise_eos (s : State) (c : Cause) (n : Nat) : (raise s c n).eos = s.eos := rfl
@[simp] theorem raise_trailing (s : State) (c : Cause) (n : Nat) : (raise s c n).trailing = s.trailing := rfl
@[simp] theorem raise_pb (s : State) (c : Cause) (n : Nat) : (raise s c n).pb = s.pb := rfl
@[simp] theorem raise_fb (s : State) (c : Cause) (n : Nat) : (raise s c n).fb = s.fb := rfl
@[simp] theorem raise_fault (s : State) (c : Cause) (n : Nat) : (raise s c n).fault = true := rfl
@[simp] theorem raise_cause (s : State) (c : Cause) (n : Nat) : (raise s c n).cause = c := rfl
@[simp] theorem raise_info (s : State) (c : Cause) (n : Nat) : (raise s c n).info = n := rfl
@[simp] theorem raise_par (s : State) (c : Cause) (n : Nat) : (raise s c n).par = s.par := rfl
@[simp] theorem raise_pending (s : State) (c : Cause) (n : Nat) : (raise s c n).pending = s.pending := rfl
@[simp] theorem raise_replies (s : State) (c : Cause) (n : Nat) : (raise s c n).replies = s.replies := rfl

@[simp] theorem resetBlock_mode (s : State) : (resetBlock s).mode = 0 := rfl
@[simp] theorem resetBlock_frows (s : State) : (resetBlock s).frows = 0 := rfl
@[simp] theorem resetBlock_fcols (s : State) : (resetBlock s).fcols = 0 := rfl
@[simp] theorem resetBlock_block (s : State) : (resetBlock s).block = 8 := rfl
@[simp] theorem resetBlock_radius (s : State) : (resetBlock s).radius = 0 := rfl
@[simp] theorem resetBlock_cfgOk (s : State) : (resetBlock s).cfgOk = false := rfl
@[simp] theorem resetBlock_wstate (s : State) : (resetBlock s).wstate = .closed := rfl
@[simp] theorem resetBlock_wk (s : State) : (resetBlock s).wk = 0 := rfl
@[simp] theorem resetBlock_out (s : State) : (resetBlock s).out = [] := rfl
@[simp] theorem resetBlock_rstate (s : State) : (resetBlock s).rstate = .closed := rfl
@[simp] theorem resetBlock_rk (s : State) : (resetBlock s).rk = 0 := rfl
@[simp] theorem resetBlock_cur (s : State) : (resetBlock s).cur = 0 := rfl
@[simp] theorem resetBlock_inp (s : State) : (resetBlock s).inp = [] := rfl
@[simp] theorem resetBlock_eos (s : State) : (resetBlock s).eos = false := rfl
@[simp] theorem resetBlock_trailing (s : State) : (resetBlock s).trailing = false := rfl
@[simp] theorem resetBlock_pb (s : State) : (resetBlock s).pb = [] := rfl
@[simp] theorem resetBlock_fb (s : State) : (resetBlock s).fb = [] := rfl
@[simp] theorem resetBlock_fault (s : State) : (resetBlock s).fault = false := rfl
@[simp] theorem resetBlock_cause (s : State) : (resetBlock s).cause = .noFault := rfl
@[simp] theorem resetBlock_info (s : State) : (resetBlock s).info = 0 := rfl
@[simp] theorem resetBlock_par (s : State) : (resetBlock s).par = s.par := rfl
@[simp] theorem resetBlock_pending (s : State) : (resetBlock s).pending = s.pending := rfl
@[simp] theorem resetBlock_replies (s : State) : (resetBlock s).replies = s.replies := rfl

@[simp] theorem memWrite_mode (s : State) (b : Bits) : (memWrite s b).mode = s.mode := rfl
@[simp] theorem memWrite_frows (s : State) (b : Bits) : (memWrite s b).frows = s.frows := rfl
@[simp] theorem memWrite_fcols (s : State) (b : Bits) : (memWrite s b).fcols = s.fcols := rfl
@[simp] theorem memWrite_block (s : State) (b : Bits) : (memWrite s b).block = s.block := rfl
@[simp] theorem memWrite_radius (s : State) (b : Bits) : (memWrite s b).radius = s.radius := rfl
@[simp] theorem memWrite_cfgOk (s : State) (b : Bits) : (memWrite s b).cfgOk = s.cfgOk := rfl
@[simp] theorem memWrite_wstate (s : State) (b : Bits) : (memWrite s b).wstate = s.wstate := rfl
@[simp] theorem memWrite_wk (s : State) (b : Bits) : (memWrite s b).wk = s.wk := rfl
@[simp] theorem memWrite_out (s : State) (b : Bits) : (memWrite s b).out = s.out ++ b := rfl
@[simp] theorem memWrite_rstate (s : State) (b : Bits) : (memWrite s b).rstate = s.rstate := rfl
@[simp] theorem memWrite_rk (s : State) (b : Bits) : (memWrite s b).rk = s.rk := rfl
@[simp] theorem memWrite_cur (s : State) (b : Bits) : (memWrite s b).cur = s.cur := rfl
@[simp] theorem memWrite_inp (s : State) (b : Bits) : (memWrite s b).inp = s.inp := rfl
@[simp] theorem memWrite_eos (s : State) (b : Bits) : (memWrite s b).eos = s.eos := rfl
@[simp] theorem memWrite_trailing (s : State) (b : Bits) : (memWrite s b).trailing = s.trailing := rfl
@[simp] theorem memWrite_pb (s : State) (b : Bits) : (memWrite s b).pb = s.pb := rfl
@[simp] theorem memWrite_fb (s : State) (b : Bits) : (memWrite s b).fb = s.fb := rfl
@[simp] theorem memWrite_fault (s : State) (b : Bits) : (memWrite s b).fault = s.fault := rfl
@[simp] theorem memWrite_cause (s : State) (b : Bits) : (memWrite s b).cause = s.cause := rfl
@[simp] theorem memWrite_info (s : State) (b : Bits) : (memWrite s b).info = s.info := rfl
@[simp] theorem memWrite_par (s : State) (b : Bits) : (memWrite s b).par = s.par := rfl
@[simp] theorem memWrite_pending (s : State) (b : Bits) : (memWrite s b).pending = s.pending := rfl
@[simp] theorem memWrite_replies (s : State) (b : Bits) : (memWrite s b).replies = s.replies := rfl

@[simp] theorem closeSessions_mode (s : State) : (closeSessions s).mode = s.mode := rfl
@[simp] theorem closeSessions_frows (s : State) : (closeSessions s).frows = s.frows := rfl
@[simp] theorem closeSessions_fcols (s : State) : (closeSessions s).fcols = s.fcols := rfl
@[simp] theorem closeSessions_block (s : State) : (closeSessions s).block = s.block := rfl
@[simp] theorem closeSessions_radius (s : State) : (closeSessions s).radius = s.radius := rfl
@[simp] theorem closeSessions_cfgOk (s : State) : (closeSessions s).cfgOk = s.cfgOk := rfl
@[simp] theorem closeSessions_wstate (s : State) : (closeSessions s).wstate = .closed := rfl
@[simp] theorem closeSessions_wk (s : State) : (closeSessions s).wk = s.wk := rfl
@[simp] theorem closeSessions_out (s : State) : (closeSessions s).out = s.out := rfl
@[simp] theorem closeSessions_rstate (s : State) : (closeSessions s).rstate = .closed := rfl
@[simp] theorem closeSessions_rk (s : State) : (closeSessions s).rk = s.rk := rfl
@[simp] theorem closeSessions_cur (s : State) : (closeSessions s).cur = s.cur := rfl
@[simp] theorem closeSessions_inp (s : State) : (closeSessions s).inp = s.inp := rfl
@[simp] theorem closeSessions_eos (s : State) : (closeSessions s).eos = s.eos := rfl
@[simp] theorem closeSessions_trailing (s : State) : (closeSessions s).trailing = s.trailing := rfl
@[simp] theorem closeSessions_pb (s : State) : (closeSessions s).pb = s.pb := rfl
@[simp] theorem closeSessions_fb (s : State) : (closeSessions s).fb = s.fb := rfl
@[simp] theorem closeSessions_fault (s : State) : (closeSessions s).fault = s.fault := rfl
@[simp] theorem closeSessions_cause (s : State) : (closeSessions s).cause = s.cause := rfl
@[simp] theorem closeSessions_info (s : State) : (closeSessions s).info = s.info := rfl
@[simp] theorem closeSessions_par (s : State) : (closeSessions s).par = s.par := rfl
@[simp] theorem closeSessions_pending (s : State) : (closeSessions s).pending = s.pending := rfl
@[simp] theorem closeSessions_replies (s : State) : (closeSessions s).replies = s.replies := rfl

@[simp] theorem endOfStream_mode (s : State) : (endOfStream s).mode = s.mode := rfl
@[simp] theorem endOfStream_frows (s : State) : (endOfStream s).frows = s.frows := rfl
@[simp] theorem endOfStream_fcols (s : State) : (endOfStream s).fcols = s.fcols := rfl
@[simp] theorem endOfStream_block (s : State) : (endOfStream s).block = s.block := rfl
@[simp] theorem endOfStream_radius (s : State) : (endOfStream s).radius = s.radius := rfl
@[simp] theorem endOfStream_cfgOk (s : State) : (endOfStream s).cfgOk = s.cfgOk := rfl
@[simp] theorem endOfStream_wstate (s : State) : (endOfStream s).wstate = s.wstate := rfl
@[simp] theorem endOfStream_wk (s : State) : (endOfStream s).wk = s.wk := rfl
@[simp] theorem endOfStream_out (s : State) : (endOfStream s).out = s.out := rfl
@[simp] theorem endOfStream_rstate (s : State) : (endOfStream s).rstate = .done := rfl
@[simp] theorem endOfStream_rk (s : State) : (endOfStream s).rk = s.rk := rfl
@[simp] theorem endOfStream_cur (s : State) : (endOfStream s).cur = s.cur := rfl
@[simp] theorem endOfStream_inp (s : State) : (endOfStream s).inp = s.inp := rfl
@[simp] theorem endOfStream_eos (s : State) : (endOfStream s).eos = true := rfl
@[simp] theorem endOfStream_trailing (s : State) : (endOfStream s).trailing = s.leftover := rfl
@[simp] theorem endOfStream_pb (s : State) : (endOfStream s).pb = s.pb := rfl
@[simp] theorem endOfStream_fb (s : State) : (endOfStream s).fb = s.fb := rfl
@[simp] theorem endOfStream_fault (s : State) : (endOfStream s).fault = s.fault := rfl
@[simp] theorem endOfStream_cause (s : State) : (endOfStream s).cause = s.cause := rfl
@[simp] theorem endOfStream_info (s : State) : (endOfStream s).info = s.info := rfl
@[simp] theorem endOfStream_par (s : State) : (endOfStream s).par = s.par := rfl
@[simp] theorem endOfStream_pending (s : State) : (endOfStream s).pending = s.pending := rfl
@[simp] theorem endOfStream_replies (s : State) : (endOfStream s).replies = s.replies := rfl

@[simp] theorem configWritten_mode (s : State) : (configWritten s).mode = s.mode := rfl
@[simp] theorem configWritten_frows (s : State) : (configWritten s).frows = s.frows := rfl
@[simp] theorem configWritten_fcols (s : State) : (configWritten s).fcols = s.fcols := rfl
@[simp] theorem configWritten_block (s : State) : (configWritten s).block = s.block := rfl
@[simp] theorem configWritten_radius (s : State) : (configWritten s).radius = s.radius := rfl
@[simp] theorem configWritten_cfgOk (s : State) : (configWritten s).cfgOk = false := rfl
@[simp] theorem configWritten_wstate (s : State) : (configWritten s).wstate = .closed := rfl
@[simp] theorem configWritten_wk (s : State) : (configWritten s).wk = s.wk := rfl
@[simp] theorem configWritten_out (s : State) : (configWritten s).out = s.out := rfl
@[simp] theorem configWritten_rstate (s : State) : (configWritten s).rstate = .closed := rfl
@[simp] theorem configWritten_rk (s : State) : (configWritten s).rk = s.rk := rfl
@[simp] theorem configWritten_cur (s : State) : (configWritten s).cur = s.cur := rfl
@[simp] theorem configWritten_inp (s : State) : (configWritten s).inp = s.inp := rfl
@[simp] theorem configWritten_eos (s : State) : (configWritten s).eos = s.eos := rfl
@[simp] theorem configWritten_trailing (s : State) : (configWritten s).trailing = s.trailing := rfl
@[simp] theorem configWritten_pb (s : State) : (configWritten s).pb = s.pb := rfl
@[simp] theorem configWritten_fb (s : State) : (configWritten s).fb = s.fb := rfl
@[simp] theorem configWritten_fault (s : State) : (configWritten s).fault = s.fault := rfl
@[simp] theorem configWritten_cause (s : State) : (configWritten s).cause = s.cause := rfl
@[simp] theorem configWritten_info (s : State) : (configWritten s).info = s.info := rfl
@[simp] theorem configWritten_par (s : State) : (configWritten s).par = s.par := rfl
@[simp] theorem configWritten_pending (s : State) : (configWritten s).pending = s.pending := rfl
@[simp] theorem configWritten_replies (s : State) : (configWritten s).replies = s.replies := rfl

@[simp] theorem reset_mode : State.reset.mode = 0 := rfl
@[simp] theorem reset_frows : State.reset.frows = 0 := rfl
@[simp] theorem reset_fcols : State.reset.fcols = 0 := rfl
@[simp] theorem reset_block : State.reset.block = 8 := rfl
@[simp] theorem reset_radius : State.reset.radius = 0 := rfl
@[simp] theorem reset_cfgOk : State.reset.cfgOk = false := rfl
@[simp] theorem reset_wstate : State.reset.wstate = .closed := rfl
@[simp] theorem reset_wk : State.reset.wk = 0 := rfl
@[simp] theorem reset_out : State.reset.out = [] := rfl
@[simp] theorem reset_rstate : State.reset.rstate = .closed := rfl
@[simp] theorem reset_rk : State.reset.rk = 0 := rfl
@[simp] theorem reset_cur : State.reset.cur = 0 := rfl
@[simp] theorem reset_inp : State.reset.inp = [] := rfl
@[simp] theorem reset_eos : State.reset.eos = false := rfl
@[simp] theorem reset_trailing : State.reset.trailing = false := rfl
@[simp] theorem reset_pb : State.reset.pb = [] := rfl
@[simp] theorem reset_fb : State.reset.fb = [] := rfl
@[simp] theorem reset_fault : State.reset.fault = false := rfl
@[simp] theorem reset_cause : State.reset.cause = .noFault := rfl
@[simp] theorem reset_info : State.reset.info = 0 := rfl

end Sys2Proof.Machine
end

