-- ==== Sys2Proof/Laws/Ops.lean ====
section
/-! SUPPORT. For each shared operation and each meaning, what it can do when it answers a next state, said once; and that
the memory operations keep the memory well formed. -/

namespace Sys2Proof.Machine

variable {s t : State} {k : Result}

theorem next_eq_next : (Host.Outcome.next s : Result) = .next t ↔ t = s := by
  rw [Host.Outcome.next.injEq, eq_comm]

/-! ### The common sequence and the limits -/

@[simp] theorem raised_eq_next {c : Cause} {n : Nat} : raised s c n = .next t ↔ t = raise s c n := by
  simp [raised, -Host.Outcome.next.injEq, next_eq_next]

theorem unlessFaulted_eq_next :
    unlessFaulted s k = .next t ↔ (s.fault = true ∧ t = s) ∨ (s.fault = false ∧ k = .next t) := by
  cases h : s.fault <;> simp [unlessFaulted, h, -Host.Outcome.next.injEq, next_eq_next]

theorem unitCommand_eq_next {i : Instr} :
    unitCommand i s k = .next t ↔
      (s.fault = true ∧ t = s) ∨
      (s.fault = false ∧ s.cfgOk = false ∧ t = raise s .sequence (encode i).toNat) ∨ (s.ready ∧ k = .next t) := by
  cases h : s.fault <;> cases h' : s.cfgOk <;> simp [unitCommand, unlessFaulted_eq_next, State.ready, h, h']

theorem keepWithin_eq_next {sp : Space} {n : Nat} : keepWithin s sp n k = .next t ↔ s.admits sp n ∧ k = .next t := by
  unfold keepWithin
  split
  · exact ⟨fun e => ⟨‹_›, e⟩, fun e => e.2⟩
  · exact ⟨fun e => (nomatch e), fun e => absurd e.1 ‹_›⟩

theorem keepCount_eq_next {c : Counter} {n : Nat} : keepCount c n k = .next t ↔ n ≤ Config.cntMax ∧ k = .next t := by
  unfold keepCount
  split
  · exact ⟨fun e => ⟨‹_›, e⟩, fun e => e.2⟩
  · exact ⟨fun e => (nomatch e), fun e => absurd e.1 ‹_›⟩

/-- A unit's command on a ready block runs its rule. -/
theorem unitCommand_ready {i : Instr} (h : s.ready) : unitCommand i s k = k := by
  simp [unitCommand, unlessFaulted, h.1, h.2]

theorem keepWithin_admitted {sp : Space} {n : Nat} (h : s.admits sp n) : keepWithin s sp n k = k := by
  simp [keepWithin, h]

theorem keepCount_admitted {c : Counter} {n : Nat} (h : n ≤ Config.cntMax) : keepCount c n k = k := by
  simp [keepCount, h]

/-! ### The buffers and the streams -/

theorem loadPb_eq_next {b : Bits} : loadPb s b = .next t ↔ s.admits .pb b.length ∧ t = { s with pb := b } := by
  simp [loadPb, keepWithin_eq_next, -Host.Outcome.next.injEq, next_eq_next]

theorem loadFb_eq_next {l : List Int} : loadFb s l = .next t ↔ s.admits .fb l.length ∧ t = { s with fb := l } := by
  simp [loadFb, keepWithin_eq_next, -Host.Outcome.next.injEq, next_eq_next]

theorem loadIn_eq_next {b : Bits} :
    loadIn s b = .next t ↔ s.admits .inp b.length ∧
      t = { s with inp := b, cur := 0, rk := 0, rstate := .closed, eos := false, trailing := false } := by
  simp [loadIn, keepWithin_eq_next, -Host.Outcome.next.injEq, next_eq_next]

theorem packInto_eq_next {l : List Int} :
    packInto s l = .next t ↔
      (s.fb.length ≠ s.nfields ∧ t = raise s .lengthMismatch s.fb.length) ∨
      (s.fb.length = s.nfields ∧ ∃ i, pack l s.bitwidth = .error i ∧ t = raise s .valueRange i) ∨
      (s.fb.length = s.nfields ∧
        ∃ b, pack l s.bitwidth = .ok b ∧ s.admits .pb b.length ∧ t = { s with pb := b }) := by
  unfold packInto
  by_cases h : s.fb.length = s.nfields <;> cases hp : pack l s.bitwidth <;>
    simp [h, loadPb_eq_next]

theorem unpackInto_eq_next {r : Nat} :
    unpackInto s r = .next t ↔
      (∃ n, unpack s.pb s.bitwidth s.nfields = .error n ∧ t = raise s .truncPayload n) ∨
      (∃ l, unpack s.pb s.bitwidth s.nfields = .ok l ∧ s.admits .fb (dequant l r).length ∧
        t = { s with fb := dequant l r }) := by
  unfold unpackInto
  cases hp : unpack s.pb s.bitwidth s.nfields <;> simp [loadFb_eq_next]

theorem appendUnit_eq_next {k : State → Result} :
    appendUnit s k = .next t ↔ s.admits .out (s.out.length + s.pb.length + s.slen) ∧
      k (memWrite s (s.pb ++ s.sentinel)) = .next t := by
  simp [appendUnit, keepWithin_eq_next]

theorem completeWritten_eq_next :
    completeWritten s = .next t ↔ s.wk + 1 ≤ Config.cntMax ∧ t = { s with wstate := .frame, wk := s.wk + 1 } := by
  simp [completeWritten, keepCount_eq_next, -Host.Outcome.next.injEq, next_eq_next]

theorem takeUnit_eq_next {n : Nat} {k : State → Result} :
    takeUnit s n k = .next t ↔ s.admits .pb n ∧
      k { s with pb := memRead s s.cur n, cur := s.cur + n + s.slen } = .next t := by
  simp [takeUnit, keepWithin_eq_next]

theorem completeRead_eq_next :
    completeRead s = .next t ↔ s.rk + 1 ≤ Config.cntMax ∧ t = { s with rstate := .frame, rk := s.rk + 1 } := by
  simp [completeRead, keepCount_eq_next, -Host.Outcome.next.injEq, next_eq_next]

/-! ### The commands -/

theorem execCfgcommit_eq_next :
    execCfgcommit s = .next t ↔
      (s.fault = true ∧ t = s) ∨
      (s.fault = false ∧ ∃ n, s.configCheck = some n ∧ t = raise s .configInvalid n) ∨
      (s.fault = false ∧ s.configCheck = none ∧ s.cfgFields ≤ Config.cntMax ∧ s.cfgMlen ≤ Config.cntMax ∧
        t = { closeSessions s with cfgOk := true }) := by
  unfold execCfgcommit
  rw [unlessFaulted_eq_next]
  cases h : s.configCheck <;> simp [keepCount_eq_next, -Host.Outcome.next.injEq, next_eq_next]

theorem execSreset_eq_next : execSreset s = .next t ↔ t = resetBlock s := by
  simp [execSreset, -Host.Outcome.next.injEq, next_eq_next]

theorem execMvpack_eq_next :
    execMvpack s = .next t ↔
      (s.fault = true ∧ t = s) ∨
      (s.fault = false ∧ s.cfgOk = false ∧ t = raise s .sequence (encode .mvpack).toNat) ∨
      (s.ready ∧ packInto s s.fb = .next t) := unitCommand_eq_next

theorem execMvqpack_eq_next :
    execMvqpack s = .next t ↔
      (s.fault = true ∧ t = s) ∨
      (s.fault = false ∧ s.cfgOk = false ∧ t = raise s .sequence (encode .mvqpack).toNat) ∨
      (s.ready ∧ packInto s (quant s.fb s.radius) = .next t) := unitCommand_eq_next

theorem execMvunpack_eq_next :
    execMvunpack s = .next t ↔
      (s.fault = true ∧ t = s) ∨
      (s.fault = false ∧ s.cfgOk = false ∧ t = raise s .sequence (encode .mvunpack).toNat) ∨
      (s.ready ∧ unpackInto s 0 = .next t) := unitCommand_eq_next

theorem execMvunpackq_eq_next :
    execMvunpackq s = .next t ↔
      (s.fault = true ∧ t = s) ∨
      (s.fault = false ∧ s.cfgOk = false ∧ t = raise s .sequence (encode .mvunpackq).toNat) ∨
      (s.ready ∧ unpackInto s s.radius = .next t) := unitCommand_eq_next

theorem execWopen_eq_next :
    execWopen s = .next t ↔
      (s.fault = true ∧ t = s) ∨
      (s.fault = false ∧ s.cfgOk = false ∧ t = raise s .sequence (encode .wopen).toNat) ∨
      (s.ready ∧ t = { s with out := [], wk := 0, wstate := .frame }) := by
  simp [execWopen, unitCommand_eq_next, -Host.Outcome.next.injEq, next_eq_next]

theorem execWframe_eq_next :
    execWframe s = .next t ↔
      (s.fault = true ∧ t = s) ∨
      (s.fault = false ∧ s.cfgOk = false ∧ t = raise s .sequence (encode .wframe).toNat) ∨
      (s.ready ∧ s.wstate ≠ .frame ∧ t = raise s .sequence (encode .wframe).toNat) ∨
      (s.ready ∧ s.wstate = .frame ∧ s.admits .out (s.out.length + s.pb.length + s.slen) ∧
        ((s.owesMotion s.wk = true ∧ t = { memWrite s (s.pb ++ s.sentinel) with wstate := .motion }) ∨
          (s.owesMotion s.wk = false ∧ s.wk + 1 ≤ Config.cntMax ∧
            t = { memWrite s (s.pb ++ s.sentinel) with wstate := .frame, wk := s.wk + 1 }))) := by
  have ho : (memWrite s (s.pb ++ s.sentinel)).owesMotion s.wk = s.owesMotion s.wk := rfl
  unfold execWframe
  rw [unitCommand_eq_next]
  by_cases h : s.wstate = .frame
  · cases hw : s.owesMotion s.wk <;>
      simp [h, hw, ho, appendUnit_eq_next, completeWritten_eq_next, -Host.Outcome.next.injEq, next_eq_next]
  · simp [h]

theorem execWmotion_eq_next :
    execWmotion s = .next t ↔
      (s.fault = true ∧ t = s) ∨
      (s.fault = false ∧ s.cfgOk = false ∧ t = raise s .sequence (encode .wmotion).toNat) ∨
      (s.ready ∧ s.wstate ≠ .motion ∧ t = raise s .sequence (encode .wmotion).toNat) ∨
      (s.ready ∧ s.wstate = .motion ∧ s.pb.length ≠ s.mlen ∧ t = raise s .lengthMismatch s.pb.length) ∨
      (s.ready ∧ s.wstate = .motion ∧ s.pb.length = s.mlen ∧
        s.admits .out (s.out.length + s.pb.length + s.slen) ∧ s.wk + 1 ≤ Config.cntMax ∧
        t = { memWrite s (s.pb ++ s.sentinel) with wstate := .frame, wk := s.wk + 1 }) := by
  unfold execWmotion
  rw [unitCommand_eq_next]
  by_cases h : s.wstate = .motion
  · by_cases hl : s.pb.length = s.mlen <;>
      simp [h, hl, appendUnit_eq_next, completeWritten_eq_next]
  · simp [h]

theorem execRopen_eq_next :
    execRopen s = .next t ↔
      (s.fault = true ∧ t = s) ∨
      (s.fault = false ∧ s.cfgOk = false ∧ t = raise s .sequence (encode .ropen).toNat) ∨
      (s.ready ∧ t = { s with cur := 0, rk := 0, rstate := .frame, eos := false, trailing := false }) := by
  simp [execRopen, unitCommand_eq_next, -Host.Outcome.next.injEq, next_eq_next]

theorem readFrameUnit_eq_next :
    readFrameUnit s = .next t ↔
      (find s.sentinel s.inp s.cur = none ∧ t = endOfStream s) ∨
      ∃ p, find s.sentinel s.inp s.cur = some p ∧ s.admits .pb (p - s.cur) ∧
        ((s.owesMotion s.rk = true ∧
            t = { s with pb := memRead s s.cur (p - s.cur), cur := s.cur + (p - s.cur) + s.slen, rstate := .motion }) ∨
          (s.owesMotion s.rk = false ∧ s.rk + 1 ≤ Config.cntMax ∧
            t = { s with
              pb := memRead s s.cur (p - s.cur), cur := s.cur + (p - s.cur) + s.slen, rstate := .frame,
              rk := s.rk + 1 })) := by
  have ho : ∀ b n, State.owesMotion { s with pb := b, cur := n } s.rk = s.owesMotion s.rk := fun _ _ => rfl
  unfold readFrameUnit
  cases hf : find s.sentinel s.inp s.cur with
  | none => simp [-Host.Outcome.next.injEq, next_eq_next]
  | some p => cases hw : s.owesMotion s.rk <;> simp [ho, hw, takeUnit_eq_next, completeRead_eq_next, -Host.Outcome.next.injEq, next_eq_next]

theorem execRframe_eq_next :
    execRframe s = .next t ↔
      (s.fault = true ∧ t = s) ∨
      (s.fault = false ∧ s.cfgOk = false ∧ t = raise s .sequence (encode .rframe).toNat) ∨
      (s.ready ∧ s.rstate ≠ .frame ∧ s.rstate ≠ .done ∧ t = raise s .sequence (encode .rframe).toNat) ∨
      (s.ready ∧ s.rstate = .done ∧ t = s) ∨ (s.ready ∧ s.rstate = .frame ∧ readFrameUnit s = .next t) := by
  unfold execRframe
  rw [unitCommand_eq_next]
  cases h : s.rstate <;> simp [-Host.Outcome.next.injEq, next_eq_next]

theorem readMotionUnit_eq_next :
    readMotionUnit s = .next t ↔
      (s.inp.length - s.cur < s.mlen ∧ t = raise s .truncMotion (s.inp.length - s.cur)) ∨
      (s.mlen ≤ s.inp.length - s.cur ∧ s.inp.length - s.cur - s.mlen < s.slen ∧
        t = raise s .truncSentinel (s.inp.length - s.cur - s.mlen)) ∨
      (s.mlen ≤ s.inp.length - s.cur ∧ s.slen ≤ s.inp.length - s.cur - s.mlen ∧
        memRead s (s.cur + s.mlen) s.slen ≠ s.sentinel ∧ t = raise s .sentinelMismatch (s.cur + s.mlen)) ∨
      (s.mlen ≤ s.inp.length - s.cur ∧ s.slen ≤ s.inp.length - s.cur - s.mlen ∧
        memRead s (s.cur + s.mlen) s.slen = s.sentinel ∧ s.admits .pb s.mlen ∧ s.rk + 1 ≤ Config.cntMax ∧
        t = { s with
          pb := memRead s s.cur s.mlen, cur := s.cur + s.mlen + s.slen, rstate := .frame, rk := s.rk + 1 }) := by
  unfold readMotionUnit
  by_cases h1 : s.inp.length - s.cur < s.mlen
  · have h1' : ¬ s.mlen ≤ s.inp.length - s.cur := by omega
    simp [h1, h1']
  · have h1' : s.mlen ≤ s.inp.length - s.cur := by omega
    by_cases h2 : s.inp.length - s.cur - s.mlen < s.slen
    · have h2' : ¬ s.slen ≤ s.inp.length - s.cur - s.mlen := by omega
      simp only [h1, h1', h2, h2', if_true, if_false, raised_eq_next]; simp
    · have h2' : s.slen ≤ s.inp.length - s.cur - s.mlen := by omega
      by_cases h3 : memRead s (s.cur + s.mlen) s.slen = s.sentinel <;>
        simp [h1, h1', h2, h2', h3, takeUnit_eq_next, completeRead_eq_next]

theorem execRmotion_eq_next :
    execRmotion s = .next t ↔
      (s.fault = true ∧ t = s) ∨
      (s.fault = false ∧ s.cfgOk = false ∧ t = raise s .sequence (encode .rmotion).toNat) ∨
      (s.ready ∧ s.rstate ≠ .motion ∧ t = raise s .sequence (encode .rmotion).toNat) ∨
      (s.ready ∧ s.rstate = .motion ∧ readMotionUnit s = .next t) := by
  unfold execRmotion
  rw [unitCommand_eq_next]
  by_cases h : s.rstate = .motion <;> simp [h]

/-! ### The host's events -/

theorem command_eq_next {w : Word} :
    command w s = .next t ↔
      (∃ i, decode w = .ok i ∧ exec i s = .next t) ∨
      (∃ e, decode w = .error e ∧
        ((s.fault = true ∧ t = s) ∨ (s.fault = false ∧ t = raise s .illegalCommand w.toNat))) := by
  unfold command
  cases h : decode w <;> simp [unlessFaulted_eq_next]

/-- A command issued is its meaning. -/
theorem perform_issue (i : Instr) (s : State) : perform (issue i) s = exec i s := by
  cases i <;> rfl

theorem performAll_append (es fs : List HostEvent) (s : State) :
    performAll (es ++ fs) s =
      match performAll es s with
      | .next t => performAll fs t
      | .fault r => .fault r
      | .refused r => .refused r := by
  induction es generalizing s with
  | nil => rfl
  | cons e es ih =>
    simp only [List.cons_append, performAll]
    cases perform e s <;> simp [ih]

/-! ### The memory stays well formed -/

theorem loadPb_wf {b : Bits} (hs : Memory.wf s) (h : loadPb s b = .next t) : Memory.wf t := by
  obtain ⟨ha, rfl⟩ := loadPb_eq_next.1 h
  exact ⟨ha, hs.2⟩

theorem loadFb_wf {l : List Int} (hs : Memory.wf s) (h : loadFb s l = .next t) : Memory.wf t := by
  obtain ⟨ha, rfl⟩ := loadFb_eq_next.1 h
  exact ⟨hs.1, ha, hs.2.2⟩

theorem loadIn_wf {b : Bits} (hs : Memory.wf s) (h : loadIn s b = .next t) : Memory.wf t := by
  obtain ⟨ha, rfl⟩ := loadIn_eq_next.1 h
  exact ⟨hs.1, hs.2.1, ha, hs.2.2.2⟩

theorem memWrite_wf (hs : Memory.wf s) (h : s.admits .out (s.out.length + s.pb.length + s.slen)) :
    Memory.wf (memWrite s (s.pb ++ s.sentinel)) := by
  refine ⟨hs.1, hs.2.1, hs.2.2.1, ?_⟩
  have e : (memWrite s (s.pb ++ s.sentinel)).out.length = s.out.length + s.pb.length + s.slen := by
    simp [memWrite, State.slen, Nat.add_assoc]
  rw [e]; exact h

theorem memRead_length_le (s : State) (a n : Nat) : (memRead s a n).length ≤ n := by
  simp [memRead, slice]

theorem takeUnit_wf {n c : Nat} (hs : Memory.wf s) (h : s.admits .pb n) :
    Memory.wf { s with pb := memRead s s.cur n, cur := c } :=
  ⟨⟨(memRead_length_le s _ _).trans h.1, (memRead_length_le s _ _).trans h.2⟩, hs.2⟩

theorem reset_wf : Memory.wf State.reset := by
  simp [Memory.wf, State.admits, State.reset]

end Sys2Proof.Machine
end

