-- ==== Sys2Proof/Laws/PerInstr.lean ====
section
/-! SUPPORT. What is said of every instruction as syntax, one lemma per constructor. -/

namespace Sys2Proof.Laws

/-- The command word of an instruction is well formed, has its fields, and decodes to it (R90, R91). -/
def DecodeEncode.Statement (i : Instr) : Prop :=
  i.WellFormed = true ∧ fieldsOf (encode i) = i.cmd8 ∧ decode (encode i) = .ok i

theorem DecodeEncode.cfgcommit : DecodeEncode.Statement .cfgcommit := ⟨rfl, rfl, rfl⟩
theorem DecodeEncode.sreset : DecodeEncode.Statement .sreset := ⟨rfl, rfl, rfl⟩
theorem DecodeEncode.mvpack : DecodeEncode.Statement .mvpack := ⟨rfl, rfl, rfl⟩
theorem DecodeEncode.mvunpack : DecodeEncode.Statement .mvunpack := ⟨rfl, rfl, rfl⟩
theorem DecodeEncode.mvqpack : DecodeEncode.Statement .mvqpack := ⟨rfl, rfl, rfl⟩
theorem DecodeEncode.mvunpackq : DecodeEncode.Statement .mvunpackq := ⟨rfl, rfl, rfl⟩
theorem DecodeEncode.wopen : DecodeEncode.Statement .wopen := ⟨rfl, rfl, rfl⟩
theorem DecodeEncode.wframe : DecodeEncode.Statement .wframe := ⟨rfl, rfl, rfl⟩
theorem DecodeEncode.wmotion : DecodeEncode.Statement .wmotion := ⟨rfl, rfl, rfl⟩
theorem DecodeEncode.ropen : DecodeEncode.Statement .ropen := ⟨rfl, rfl, rfl⟩
theorem DecodeEncode.rframe : DecodeEncode.Statement .rframe := ⟨rfl, rfl, rfl⟩
theorem DecodeEncode.rmotion : DecodeEncode.Statement .rmotion := ⟨rfl, rfl, rfl⟩

end Sys2Proof.Laws
end

