-- ==== Sys2Proof/Tests/Slice0.lean ====
section
/-! SUPPORT. The model's own tests: the checks of a command word, every command's word decoded, vectors of spec/95 one
step each, and for each statement with hypotheses a state and operands that meet them. Expected results are those of
spec/95 (named V1 to V49) or counted by hand from the rules; the sentinel is the example 1110 of that file. -/

namespace Sys2Proof.Tests

open Sys2Proof Sys2Proof.Machine

/-! ### Well-formedness: an ill-formed word for each check -/

theorem test_zeroOk_refuses_a_bit_above_bit_7 : (Cmd8.mk 1 2 1).zeroOk = false ∧ (Cmd8.mk 1 2 1).WellFormed = false := by
  decide
theorem test_grpOk_refuses_a_fifth_unit : (Cmd8.mk 0 4 0).grpOk = false ∧ (Cmd8.mk 0 4 0).WellFormed = false := by decide
theorem test_fnOk_refuses_absent_functions :
    (Cmd8.mk 0 0 0).fnOk = false ∧ (Cmd8.mk 0 0 3).fnOk = false ∧ (Cmd8.mk 0 1 4).fnOk = false ∧
    (Cmd8.mk 0 2 3).fnOk = false ∧ (Cmd8.mk 0 3 3).fnOk = false ∧ (Cmd8.mk 0 1 4).WellFormed = false := by decide

/-! ### Decoding: every command's word, bit by bit from R91, and some that are none (V46) -/

theorem test_decode_system :
    decode 0b00000000000000000000000000000001#32 = .ok .cfgcommit ∧
    decode 0b00000000000000000000000000000010#32 = .ok .sreset := ⟨rfl, rfl⟩
theorem test_decode_mv :
    decode 0b00000000000000000000000000010000#32 = .ok .mvpack ∧
    decode 0b00000000000000000000000000010001#32 = .ok .mvunpack ∧
    decode 0b00000000000000000000000000010010#32 = .ok .mvqpack ∧
    decode 0b00000000000000000000000000010011#32 = .ok .mvunpackq := ⟨rfl, rfl, rfl, rfl⟩
theorem test_decode_writer :
    decode 0b00000000000000000000000000100000#32 = .ok .wopen ∧
    decode 0b00000000000000000000000000100001#32 = .ok .wframe ∧
    decode 0b00000000000000000000000000100010#32 = .ok .wmotion := ⟨rfl, rfl, rfl⟩
theorem test_decode_reader :
    decode 0b00000000000000000000000000110000#32 = .ok .ropen ∧
    decode 0b00000000000000000000000000110001#32 = .ok .rframe ∧
    decode 0b00000000000000000000000000110010#32 = .ok .rmotion := ⟨rfl, rfl, rfl⟩
theorem test_decode_refuses :
    decode 0#32 = .error .noSuchFunction ∧ decode 0x23#32 = .error .noSuchFunction ∧
    decode 0x121#32 = .error .upperBits ∧ decode 0xFF#32 = .error .noSuchUnit ∧
    decode 0x80000010#32 = .error .upperBits := ⟨rfl, rfl, rfl, rfl, rfl⟩
theorem test_decodeTableWord : decodeTableWord 32 0x31 = some .rframe ∧ decodeTableWord 32 0x03 = none := ⟨rfl, rfl⟩

/-! ### States -/

/-- The example sentinel 1110, 64 bits or elements of each sequence, and elements of 16 bits. -/
def caps : Config.Params := ⟨⟨true, [true, true, false]⟩, 64, 64, 64, 64, 16, "example"⟩
/-- The reset state of a block with those parameters. -/
def start : State := { State.reset with par := caps }
/-- Configuration (2, 8, 8, 8, 1) committed (V21): `NFIELDS = 2`, `BITWIDTH = 2`, `MLEN = 4`. -/
def small : State := { start with mode := 2, frows := 8, fcols := 8, block := 8, radius := 1, cfgOk := true }
/-- cfg A of spec/95 in the registers, not committed. -/
def setA : State := { start with mode := 2, frows := 16, fcols := 16, block := 8, radius := 7 }
/-- cfg A of spec/95 committed: `NFIELDS = 8`, `BITWIDTH = 4`, `MLEN = 32`. -/
def cfgA : State := { setA with cfgOk := true }
/-- A block in the faulted condition. -/
def faulted : State := raise start .sequence 0x20

/-- Bits from digits. -/
def bits (l : List Nat) : Bits := l.map (· == 1)

/-- The stream of two frames in configuration `small`: payloads 0 and 00, field (-1, 1) (P5). -/
def stream : Bits := bits [0, 1, 1, 1, 0, 0, 0, 1, 1, 1, 0, 0, 0, 1, 0, 1, 1, 1, 0]

/-- The reader of `small` with that stream loaded and its session open. -/
def reading : State := { small with inp := stream, rstate := .frame }
/-- The reader at the motion field of frame 1. -/
def atMotion : State := { small with inp := stream, rstate := .motion, rk := 1, cur := 11, pb := bits [0, 0] }
/-- The writer of `small` that awaits frame 1's motion unit. -/
def owing : State :=
  { small with wstate := .motion, wk := 1, out := bits [0, 1, 1, 1, 0, 0, 0, 1, 1, 1, 0], pb := bits [0, 0, 1, 0] }

theorem test_derived_small :
    small.nfields = 2 ∧ small.bitwidth = 2 ∧ small.mlen = 4 ∧ small.brows = 1 ∧ small.bcols = 1 := by decide
theorem test_derived_cfgA :
    cfgA.nfields = 8 ∧ cfgA.bitwidth = 4 ∧ cfgA.mlen = 32 ∧ cfgA.brows = 2 ∧ cfgA.bcols = 2 := by decide

/-! ### Vectors of spec/95, one step each -/

/-- V1, V2. -/
theorem test_enc_val :
    enc 4 7 = bits [0, 1, 1, 1] ∧ enc 4 14 = bits [1, 1, 1, 0] ∧ enc 3 4 = bits [1, 0, 0] ∧ enc 0 0 = [] ∧
    val (bits [1, 1, 1, 0]) = 14 ∧ val [] = 0 := by decide
/-- V3. -/
theorem test_bw : [0, 1, 2, 3, 4, 7, 8, 15, 16].map bw = [0, 2, 3, 3, 4, 4, 5, 5, 6] := by decide
/-- V4. -/
theorem test_find :
    find start.sentinel (bits [0, 1, 0, 1, 1, 1, 1, 0]) 0 = some 4 ∧
    find start.sentinel (bits [0, 0, 0, 0, 1, 1, 1, 0, 1, 1, 1, 0]) 5 = some 8 ∧
    find start.sentinel (bits [1, 1, 1, 0]) 1 = none ∧ find start.sentinel [] 0 = none := by decide
/-- V5. -/
theorem test_cfgcommit_accepts : exec .cfgcommit setA = .next cfgA := by rfl
/-- V6, the second row. -/
theorem test_cfgcommit_refuses :
    exec .cfgcommit { setA with frows := 0 } = .next (raise { setA with frows := 0 } .configInvalid 2) := by rfl
/-- V9. -/
theorem test_sreset : exec .sreset { faulted with mode := 2, wk := 3, block := 4 } = .next start := by rfl
/-- V11. -/
theorem test_mvpack :
    exec .mvpack { cfgA with fb := [0, 15, 1, 14, 8, 7, 3, 12] } =
      .next { cfgA with
        fb := [0, 15, 1, 14, 8, 7, 3, 12]
        pb := bits [0, 0, 0, 0, 1, 1, 1, 1, 0, 0, 0, 1, 1, 1, 1, 0, 1, 0, 0, 0, 0, 1, 1, 1, 0, 0, 1, 1, 1, 1, 0, 0] } := by
  rfl
/-- V13. -/
theorem test_mvpack_names_the_least_index :
    exec .mvpack { cfgA with fb := [7, -1, 16, 0, 0, 0, 0, 0] } =
      .next (raise { cfgA with fb := [7, -1, 16, 0, 0, 0, 0, 0] } .valueRange 1) := by rfl
/-- V15, in the configuration of V21: fields 11 and 01. -/
theorem test_mvunpack :
    exec .mvunpack { small with pb := bits [1, 1, 0, 1] } = .next { small with pb := bits [1, 1, 0, 1], fb := [3, 1] } := by
  rfl
/-- V16, in the configuration of V21. -/
theorem test_mvunpack_wants_the_whole_payload :
    exec .mvunpack { small with pb := bits [1, 1, 0] } = .next (raise { small with pb := bits [1, 1, 0] } .truncPayload 3) := by
  rfl
/-- V21: +2 lies outside the window and packs. -/
theorem test_mvqpack :
    exec .mvqpack { small with fb := [2, 0] } = .next { small with fb := [2, 0], pb := bits [1, 1, 0, 1] } := by rfl
/-- V21: 3 does not. -/
theorem test_mvqpack_range :
    exec .mvqpack { small with fb := [0, 3] } = .next (raise { small with fb := [0, 3] } .valueRange 1) := by rfl
/-- P5: the field of frame 1. -/
theorem test_mvunpackq :
    exec .mvunpackq { small with pb := bits [0, 0, 1, 0] } = .next { small with pb := bits [0, 0, 1, 0], fb := [-1, 1] } := by
  rfl
/-- V25. -/
theorem test_wopen : exec .wopen { cfgA with out := [true], wk := 9 } = .next { cfgA with wstate := .frame } := by rfl
/-- V26. -/
theorem test_wframe_first :
    exec .wframe { cfgA with wstate := .frame, pb := bits [0, 1, 0, 1] } =
      .next { cfgA with wstate := .frame, pb := bits [0, 1, 0, 1], out := bits [0, 1, 0, 1, 1, 1, 1, 0], wk := 1 } := by
  rfl
/-- V27. -/
theorem test_wframe_later :
    exec .wframe { cfgA with wstate := .frame, pb := bits [0, 0, 1, 1], wk := 1 } =
      .next { cfgA with wstate := .motion, pb := bits [0, 0, 1, 1], out := bits [0, 0, 1, 1, 1, 1, 1, 0], wk := 1 } := by
  rfl
/-- P5: the motion unit of frame 1. -/
theorem test_wmotion :
    exec .wmotion owing =
      .next { owing with wstate := .frame, wk := 2, out := owing.out ++ bits [0, 0, 1, 0, 1, 1, 1, 0] } := by rfl
/-- V29. -/
theorem test_wmotion_length :
    exec .wmotion { cfgA with wstate := .motion, wk := 1, pb := bits [0, 0, 1, 1] } =
      .next (raise { cfgA with wstate := .motion, wk := 1, pb := bits [0, 0, 1, 1] } .lengthMismatch 4) := by rfl
/-- V32. -/
theorem test_ropen :
    exec .ropen { small with inp := stream, cur := 3, rk := 2, eos := true, trailing := true } = .next reading := by rfl
/-- P5: frame 0, then the frame unit of frame 1. -/
theorem test_rframe :
    exec .rframe reading = .next { reading with pb := bits [0], cur := 5, rk := 1 } ∧
    exec .rframe { reading with cur := 5, rk := 1 } = .next atMotion := ⟨by rfl, by rfl⟩
/-- V40: padding with no sentinel in it. -/
theorem test_rframe_ends :
    exec .rframe { reading with inp := bits [1, 1, 1, 0, 0, 0, 0], cur := 4 } =
      .next { reading with inp := bits [1, 1, 1, 0, 0, 0, 0], cur := 4, rstate := .done, eos := true, trailing := true } := by
  rfl
/-- P5. -/
theorem test_rmotion :
    exec .rmotion atMotion = .next { atMotion with pb := bits [0, 0, 1, 0], cur := 19, rstate := .frame, rk := 2 } := by rfl
/-- V44: the field is whole and no sentinel follows. -/
theorem test_rmotion_mismatch :
    let s : State := { atMotion with inp := bits [0, 0, 0, 0, 1, 1, 1, 1, 0, 0, 1, 0], cur := 4 }
    exec .rmotion s = .next (raise s .sentinelMismatch 8) := by rfl
/-- V49. -/
theorem test_status :
    small.status = 0x01 ∧ { small with wstate := .motion }.status = 0x21 ∧
    { small with rstate := .done, eos := true, trailing := true, wstate := .frame }.status = 0xDD ∧
    (raise atMotion .truncMotion 3).status = 0x83 := by decide
/-- The command placed for the next step runs, and the host's other events stay (V10). -/
theorem test_step_runs_the_placed_command :
    step (({ start with pending := [.hreadp] } : State).withFetchWord 32 0x20) =
      .next (raise { start with pending := [.hreadp] } .sequence 0x20) := by rfl
/-- P3: 21 bits of stream in three bytes, padded with 000; and with 111, which changes the last byte alone. -/
theorem test_bytes :
    let b := bits [0, 1, 0, 1, 1, 1, 1, 0, 1, 1, 1, 0, 1, 0, 0, 1, 0, 1, 1, 1, 0]
    bytesOf b (bits [0, 0, 0]) = [0x5E, 0xE9, 0x70] ∧ bytesOf b (bits [1, 1, 1]) = [0x5E, 0xE9, 0x77] := by decide
/-- A payload past the capacity is refused, by name (R6, D10). -/
theorem test_limit : perform (.hloadp (List.replicate 65 false)) start = .refused (.sequenceLimit .pb) := by rfl

/-! ### For each statement with hypotheses, states and operands that meet them, for each clause, at its bounds -/

theorem witness_IllegalWordsRaiseIllegalCommand :
    (∀ i : Instr, (0x14 : Word) ≠ encode i) ∧ (∀ i : Instr, (0x101 : Word) ≠ encode i) ∧
    (∀ i : Instr, (0xFFFFFFFF : Word) ≠ encode i) ∧ start.fault = false :=
  ⟨fun i => by cases i <;> decide, fun i => by cases i <;> decide, fun i => by cases i <;> decide, rfl⟩
theorem witness_StepRunsTheDecodedCommand :
    (start.withFetchWord 32 0x20).pending = .hwrite 0 0x20 :: [] ∧ decode 0x20 = .ok .wopen ∧
    Instr.WellFormed .wopen = true := ⟨rfl, rfl, rfl⟩
theorem witness_IdleStepKeepsAllState : small.pending = [] := rfl
theorem witness_EventsKeepParametersAndHostSide :
    perform (.hread 14) { owing with pending := [.hreadp] } =
      .next { owing with pending := [.hreadp], replies := [.value 1] } := by rfl
theorem witness_ElementWidthAndBusChangeNoOutcome :
    perform (issue .rframe) (withPhysical 1 "other" reading) =
      .next (withPhysical 1 "other" { reading with pb := bits [0], cur := 5, rk := 1 }) := by rfl
theorem witness_UnconfiguredCommandsRaiseSequence :
    Instr.mvpack ≠ .cfgcommit ∧ Instr.mvpack ≠ .sreset ∧ start.fault = false ∧ start.cfgOk = false := by decide
theorem witness_FaultedBlockIgnoresAllButReset :
    faulted.fault = true ∧ ((0 : Nat), (0x01 : Word)) ≠ (0, 0x02) ∧ ((0 : Nat), (0x03 : Word)) ≠ (0, 0x02) ∧
    ((8 : Nat), (0x02 : Word)) ≠ (0, 0x02) := by decide
theorem witness_FaultsArePrecise :
    start.fault = false ∧ perform (issue .rmotion) start = .next (raise start .sequence 0x32) ∧
    (raise start .sequence 0x32).fault = true := ⟨rfl, by rfl, rfl⟩
theorem witness_OnlyCommandsRaiseFaults :
    small.fault = false ∧ perform (.hwrite 0 0x23) small = .next (raise small .illegalCommand 0x23) ∧
    (raise small .illegalCommand 0x23).fault = true := ⟨rfl, by rfl, rfl⟩

/-- `e` raises the fault on a block that has none. -/
def Raises (e : HostEvent) (s : State) (c : Cause) (n : Nat) : Prop :=
  s.fault = false ∧ perform e s = .next (raise s c n) ∧ (raise s c n).fault = true

theorem witness_EveryFaultHasItsRow_truncMotion :
    Raises (issue .rmotion) { atMotion with inp := stream.take 14 } .truncMotion 3 := ⟨rfl, by rfl, rfl⟩
theorem witness_EveryFaultHasItsRow_truncSentinel :
    Raises (issue .rmotion) { atMotion with inp := stream.take 15 } .truncSentinel 0 ∧
    Raises (issue .rmotion) { atMotion with inp := stream.take 18 } .truncSentinel 3 :=
  ⟨⟨rfl, by rfl, rfl⟩, rfl, by rfl, rfl⟩
theorem witness_EveryFaultHasItsRow_truncPayload :
    Raises (issue .mvunpack) { small with pb := bits [0, 0, 0] } .truncPayload 3 ∧
    Raises (issue .mvunpackq) { small with pb := bits [0, 0, 0, 0, 0] } .truncPayload 5 :=
  ⟨⟨rfl, by rfl, rfl⟩, rfl, by rfl, rfl⟩
theorem witness_EveryFaultHasItsRow_valueRange :
    Raises (issue .mvpack) { small with fb := [3, 4] } .valueRange 1 ∧
    Raises (issue .mvpack) { small with fb := [-1, 4] } .valueRange 0 ∧
    Raises (issue .mvqpack) { small with fb := [-1, -2] } .valueRange 1 ∧
    Raises (issue .mvqpack) { small with fb := [3, 0] } .valueRange 0 :=
  ⟨⟨rfl, by rfl, rfl⟩, ⟨rfl, by rfl, rfl⟩, ⟨rfl, by rfl, rfl⟩, rfl, by rfl, rfl⟩
theorem witness_EveryFaultHasItsRow_configInvalid :
    Raises (issue .cfgcommit) { setA with mode := 3 } .configInvalid 1 ∧
    Raises (issue .cfgcommit) { setA with fcols := 20 } .configInvalid 6 :=
  ⟨⟨rfl, by rfl, rfl⟩, rfl, by rfl, rfl⟩
theorem witness_EveryFaultHasItsRow_lengthMismatch :
    Raises (issue .mvpack) { small with fb := [0] } .lengthMismatch 1 ∧
    Raises (issue .mvqpack) { small with fb := [0, 0, 9] } .lengthMismatch 3 ∧
    Raises (issue .wmotion) { owing with pb := bits [0, 0, 1] } .lengthMismatch 3 :=
  ⟨⟨rfl, by rfl, rfl⟩, ⟨rfl, by rfl, rfl⟩, rfl, by rfl, rfl⟩
theorem witness_EveryFaultHasItsRow_sentinelMismatch :
    Raises (issue .rmotion) { atMotion with inp := stream.take 15 ++ bits [1, 1, 1, 1] } .sentinelMismatch 15 :=
  ⟨rfl, by rfl, rfl⟩
theorem witness_EveryFaultHasItsRow_sequence :
    Raises (issue .mvpack) start .sequence 0x10 ∧ Raises (issue .wframe) small .sequence 0x21 ∧
    Raises (issue .wmotion) small .sequence 0x22 ∧ Raises (issue .rframe) atMotion .sequence 0x31 ∧
    Raises (issue .rmotion) reading .sequence 0x32 :=
  ⟨⟨rfl, by rfl, rfl⟩, ⟨rfl, by rfl, rfl⟩, ⟨rfl, by rfl, rfl⟩, ⟨rfl, by rfl, rfl⟩, rfl, by rfl, rfl⟩
theorem witness_EveryFaultHasItsRow_illegalCommand : Raises (.hwrite 0 0) start .illegalCommand 0 := ⟨rfl, by rfl, rfl⟩

/-- Each limit, passed by one (R6, D8, D10). -/
theorem witness_CommandsStopOnlyAtALimit :
    exec .mvpack { small with fb := [0, 3], par := { caps with capPb := 3 } } = .refused (.sequenceLimit .pb) ∧
    exec .rframe { reading with inp := bits [0, 1, 1, 1, 0], par := { caps with capPb := 0 } } =
      .refused (.sequenceLimit .pb) ∧
    exec .mvunpack { small with pb := bits [0, 0, 1, 1], par := { caps with capFb := 1 } } =
      .refused (.sequenceLimit .fb) ∧
    exec .wmotion { owing with par := { caps with capOut := 18 } } = .refused (.sequenceLimit .out) ∧
    exec .wframe { small with wstate := .frame, mode := 0, wk := 4294967295 } = .refused (.countLimit .wk) ∧
    exec .rmotion { atMotion with rk := 4294967295 } = .refused (.countLimit .rk) ∧
    exec .cfgcommit { setA with frows := 4294967288, fcols := 16 } = .refused (.countLimit .mlen) ∧
    exec .cfgcommit { setA with frows := 4294967288, fcols := 80 } = .refused (.countLimit .nfields) :=
  ⟨by rfl, by rfl, by rfl, by rfl, by rfl, by rfl, by rfl, by rfl⟩

theorem witness_ConfigurationWriteClosesSessions :
    owing.fault = false ∧ faulted.fault = true ∧ 4 ≤ 4 ∧ 8 ≤ 8 ∧
    perform (.hwrite 8 1) owing = .next { owing with cfgOk := false, wstate := .closed } :=
  ⟨rfl, rfl, by decide, by decide, by rfl⟩
theorem witness_RegisterNumbersAndAccess :
    (1 ≤ 1 ∧ 1 ≤ 3) ∧ (1 ≤ 3 ∧ 3 ≤ 3) ∧ 9 ≤ 9 ∧ 20 < 21 ∧ readRegister 20 { small with fb := [0, 0] } = 2 ∧
    perform (.hwrite 9 7) owing = .next owing := ⟨by decide, by decide, by decide, by decide, rfl, by rfl⟩
theorem witness_HostLoadsAndReads :
    start.fault = false ∧ start.admits .pb (List.replicate 64 true).length ∧
    start.admits .fb (List.replicate 64 (5 : Int)).length ∧ start.admits .inp (List.replicate 64 true).length ∧
    State.admits { start with out := List.replicate 64 true } .inp 64 := by decide
theorem witness_DerivedConfiguration :
    start.cfgOk = false ∧ small.cfgOk = true ∧ small.configLegal ∧
    State.configLegal { small with radius := 0 } := by decide
theorem witness_CfgcommitChecksThenActivates :
    setA.fault = false ∧ setA.configLegal ∧ setA.mode ≠ 3 ∧ setA.frows % setA.block = 0 ∧ setA.fcols % setA.block = 0 ∧
    setA.cfgFields ≤ Config.cntMax ∧ setA.cfgMlen ≤ Config.cntMax := by decide
theorem witness_CfgcommitChecksThenActivates_checks :
    State.configCheck { start with mode := 3 } = some 1 ∧ State.configCheck start = some 2 ∧
    State.configCheck { setA with fcols := 0 } = some 3 ∧ State.configCheck { setA with block := 0 } = some 4 ∧
    State.configCheck { setA with frows := 20 } = some 5 ∧ State.configCheck { setA with fcols := 20 } = some 6 := by
  decide
/-- The hypotheses of its first clause themselves, at the first check and at the last. -/
theorem witness_CfgcommitChecksThenActivates_first_and_last :
    let s : State := { setA with mode := 3 }
    let u : State := { setA with fcols := 20 }
    (s.fault = false ∧ FirstToHold s.commitFaults 0) ∧ u.fault = false ∧ FirstToHold u.commitFaults 5 := by
  refine ⟨⟨rfl, _, rfl, rfl, fun m d hm => absurd hm (by omega)⟩, rfl, _, rfl, by decide, fun m d hm hd => ?_⟩
  interval_cases m <;> cases hd <;> decide

theorem witness_FieldCodingIsTheBinaryNumeral : 15 < 2 ^ 4 ∧ 3 < 4 ∧ 0 < 2 ^ 0 := by decide
theorem witness_FieldWidthIsLeast : 2 * 7 + 1 ≤ 2 ^ 4 ∧ 1 ≤ 1 ∧ 7 ≤ 8 := by decide
theorem witness_FindGivesTheFirstOccurrence :
    start.sentinel ≠ [] ∧ 19 ≤ stream.length ∧ find start.sentinel stream 0 = some 1 ∧
    find start.sentinel stream 11 = some 15 ∧ find start.sentinel stream 19 = none := by decide
theorem witness_PackWritesFieldsOrFailsAtTheFirst :
    (∀ u ∈ ([0, 3] : List Int), 0 ≤ u ∧ u < 2 ^ 2) ∧ pack [0, 3] 2 = .ok (bits [0, 0, 1, 1]) ∧
    pack [3, 4, -1] 2 = .error 1 := ⟨by decide, rfl, rfl⟩
theorem witness_PackAndUnpackRoundTrip :
    ([0, 3] : List Int).length = 2 ∧ (∀ u ∈ ([0, 3] : List Int), 0 ≤ u ∧ u ≤ 2 ^ 2 - 1) ∧
    (bits [0, 0, 1, 1]).length = 2 * 2 := by decide
theorem witness_SignedRangeAccepted : pack (quant [-1, 2] 1) (bw 1) = .ok (bits [0, 0, 1, 1]) ∧
    ∀ v ∈ ([-1, 2] : List Int), -(1 : Int) ≤ v ∧ v ≤ 2 ^ bw 1 - 1 - 1 := ⟨rfl, by decide⟩
theorem witness_FieldNumbersCoverTheGrid :
    cfgA.cfgOk = true ∧ 7 < cfgA.nfields ∧ cfgA.fieldIndex 1 1 1 = 7 ∧ cfgA.fieldIndex 0 0 0 = 0 := by decide
/-- A whole byte with no padding, its last bit; and a stream of 19 bits with five. -/
theorem witness_ByteStorageKeepsTheStream :
    8 ∣ (List.replicate 8 true).length + ([] : Bits).length ∧ 7 < (List.replicate 8 true).length ∧
    8 ∣ stream.length + (bits [1, 0, 1, 0, 1]).length ∧ 18 < stream.length := by decide

/-- No configuration: the first clause of each MV statement, and of the framer's. -/
theorem witness_unconfigured : start.fault = false ∧ start.cfgOk = false := by decide
theorem witness_MvpackPacksTheField :
    let s : State := { small with fb := [0, 3] }
    s.fault = false ∧ s.cfgOk = true ∧ s.fb.length = s.nfields ∧ (∀ u ∈ s.fb, 0 ≤ u ∧ u < 2 ^ s.bitwidth) ∧
      s.admits .pb s.mlen := by decide
/-- A length too great by one; and the element at index 1 as the first that does not fit. -/
theorem witness_MvpackPacksTheField_faults :
    let q : State := { small with fb := [0, 0, 9] }
    let s : State := { small with fb := [3, 4] }
    (q.fault = false ∧ q.cfgOk = true ∧ q.fb.length ≠ q.nfields) ∧
    (s.fault = false ∧ s.cfgOk = true ∧ s.fb.length = s.nfields ∧ s.fb[1]? = some 4 ∧ (2 : Int) ^ s.bitwidth ≤ 4 ∧
      s.fb[0]? = some 3 ∧ (3 : Int) < 2 ^ s.bitwidth) := by decide
theorem witness_MvqpackPacksTheShiftedField :
    let s : State := { small with fb := [-1, 2] }
    s.fault = false ∧ s.cfgOk = true ∧ s.fb.length = s.nfields ∧
      (∀ v ∈ s.fb, -(s.radius : Int) ≤ v ∧ v ≤ 2 ^ s.bitwidth - 1 - s.radius) ∧ s.admits .pb s.mlen := by decide
theorem witness_MvqpackPacksTheShiftedField_faults :
    let q : State := { small with fb := [0] }
    let s : State := { small with fb := [2, 3] }
    let u : State := { small with fb := [-2, 0] }
    (q.cfgOk = true ∧ q.fb.length ≠ q.nfields) ∧
    (s.cfgOk = true ∧ s.fb.length = s.nfields ∧ s.fb[1]? = some 3 ∧ (2 : Int) ^ s.bitwidth ≤ 3 + s.radius ∧
      s.fb[0]? = some 2 ∧ (2 : Int) + s.radius < 2 ^ s.bitwidth) ∧
    (u.cfgOk = true ∧ u.fb.length = u.nfields ∧ u.fb[0]? = some (-2) ∧ (-2 : Int) + u.radius < 0) := by decide
theorem witness_MvunpackReadsTheFields :
    let s : State := { small with pb := bits [0, 0, 1, 1] }
    let q : State := { small with pb := bits [0, 0, 1] }
    (s.fault = false ∧ s.cfgOk = true ∧ s.pb.length = s.mlen ∧ s.admits .fb s.nfields ∧ 1 < s.nfields) ∧
    (q.fault = false ∧ q.cfgOk = true ∧ q.pb.length ≠ q.mlen) := by decide
theorem witness_MvunpackqReadsTheSignedFields :
    let s : State := { small with pb := bits [1, 1, 0, 0] }
    let q : State := { small with pb := bits [1, 1, 0, 0, 0] }
    (s.fault = false ∧ s.cfgOk = true ∧ s.pb.length = s.mlen ∧ s.admits .fb s.nfields ∧ 1 < s.nfields) ∧
    (q.fault = false ∧ q.cfgOk = true ∧ q.pb.length ≠ q.mlen) := by decide
/-- The least width that D9 allows, and the least and greatest values unpacked. -/
theorem witness_ElementWidthHoldsUnpackedValues :
    let s : State := { small with pb := bits [0, 0, 1, 1], par := { caps with mvw := 3 } }
    s.ready ∧ s.bitwidth + 1 ≤ s.par.mvw ∧ exec .mvunpack s = .next { s with fb := [0, 3] } ∧
    exec .mvunpackq s = .next { s with fb := [-1, 2] } := ⟨by decide, by decide, by rfl, by rfl⟩
theorem witness_MvCommandRoundTrips :
    let s : State := { small with fb := [0, 2], pb := bits [1, 1, 0, 0] }
    s.ready ∧ s.admits .pb s.mlen ∧ s.admits .fb s.nfields ∧ s.fb.length = s.nfields ∧
      (∀ u ∈ s.fb, 0 ≤ u ∧ u ≤ 2 ^ s.bitwidth - 1) ∧
      (∀ v ∈ s.fb, -(s.radius : Int) ≤ v ∧ v ≤ 2 ^ s.bitwidth - 1 - s.radius) ∧ s.pb.length = s.mlen := by decide
theorem witness_MvCommandsAreBlindToTheFramer :
    Instr.mvpack ∈ mvCommands ∧ small.ready ∧ exec .mvpack small = .next (raise small .lengthMismatch 0) ∧
    (raise small .lengthMismatch 0).fault = true := ⟨by decide, by decide, by rfl, rfl⟩

theorem witness_OpenCommandsStartTheirSessions : small.fault = false ∧ small.cfgOk = true ∧ start.cfgOk = false := by decide
theorem witness_WframeAppendsTheFrameUnit :
    let s : State := { small with wstate := .frame, pb := List.replicate 60 true }
    s.fault = false ∧ s.cfgOk = true ∧ s.wstate = .frame ∧ s.admits .out (s.out.length + s.pb.length + s.slen) ∧
      ¬ (s.mode = 2 ∧ 0 < s.wk) ∧ s.wk + 1 ≤ Config.cntMax := by decide
theorem witness_WframeAppendsTheFrameUnit_motion :
    let s : State := { small with wstate := .frame, wk := 1 }
    s.fault = false ∧ s.cfgOk = true ∧ s.wstate = .frame ∧ s.admits .out (s.out.length + s.pb.length + s.slen) ∧
      s.mode = 2 ∧ 0 < s.wk := by decide
theorem witness_WframeAppendsTheFrameUnit_out_of_turn : owing.fault = false ∧ owing.wstate ≠ .frame := by decide
theorem witness_WmotionAppendsTheMotionUnit :
    owing.fault = false ∧ owing.cfgOk = true ∧ owing.wstate = .motion ∧ owing.pb.length = owing.mlen ∧
    owing.admits .out (owing.out.length + owing.mlen + owing.slen) ∧ owing.wk + 1 ≤ Config.cntMax := by decide
theorem witness_WmotionAppendsTheMotionUnit_faults :
    let s : State := { owing with pb := bits [0, 0, 1] }
    (s.fault = false ∧ s.cfgOk = true ∧ s.wstate = .motion ∧ s.pb.length ≠ s.mlen) ∧
    small.fault = false ∧ small.wstate ≠ .motion := by decide

/-- Each row of R174: the event happens without a fault. -/
theorem witness_WriterTransitionsAreComplete :
    perform .hardReset owing = .next start ∧ perform (issue .sreset) owing = .next start ∧
    perform (.hwrite 4 2) owing = .next { owing with cfgOk := false, wstate := .closed } ∧
    perform (issue .cfgcommit) owing = .next { owing with wstate := .closed } ∧
    perform (issue .wopen) owing = .next { owing with out := [], wk := 0, wstate := .frame } ∧
    perform (issue .wframe) { owing with wstate := .frame } =
      .next { owing with out := owing.out ++ bits [0, 0, 1, 0, 1, 1, 1, 0] } ∧
    perform (issue .wframe) { owing with wstate := .frame, wk := 0 } =
      .next { owing with wstate := .frame, wk := 1, out := owing.out ++ bits [0, 0, 1, 0, 1, 1, 1, 0] } ∧
    perform (issue .wmotion) owing =
      .next { owing with wstate := .frame, wk := 2, out := owing.out ++ bits [0, 0, 1, 0, 1, 1, 1, 0] } ∧
    perform (issue .mvunpack) owing = .next { owing with fb := [0, 2] } :=
  ⟨by rfl, by rfl, by rfl, by rfl, by rfl, by rfl, by rfl, by rfl, by rfl⟩
/-- Each command without a row in its state: it faults. -/
theorem witness_WriterTransitionsAreComplete_faults :
    (faulted.fault = true ∧ perform (issue .wopen) faulted = .next faulted) ∧
    Raises (issue .wframe) owing .sequence 0x21 ∧ Raises (issue .wmotion) small .sequence 0x22 ∧
    Raises (issue .wopen) start .sequence 0x20 :=
  ⟨⟨rfl, by rfl⟩, ⟨rfl, by rfl, rfl⟩, ⟨rfl, by rfl, rfl⟩, rfl, by rfl, rfl⟩
theorem witness_StoresGoToTheEndOfOut :
    (exec .wmotion owing =
      .next { owing with wstate := .frame, wk := 2, out := owing.out ++ bits [0, 0, 1, 0, 1, 1, 1, 0] } ∧
      storeAddress owing = 11 ∧ 7 < owing.pb.length + owing.slen ∧ owing.ready) ∧
    exec .rframe reading = .next { reading with pb := bits [0], cur := 5, rk := 1 } :=
  ⟨⟨by rfl, rfl, by decide, by decide⟩, by rfl⟩
theorem witness_CommandsWriteOnlyTheirSpaces :
    exec .rframe reading = .next { reading with pb := bits [0], cur := 5, rk := 1 } ∧ Instr.rframe ≠ .sreset ∧
    Instr.rframe ∉ [Instr.mvunpack, .mvunpackq] ∧ Instr.rframe ∉ [Instr.wopen, .wframe, .wmotion] ∧
    Instr.rframe ≠ .cfgcommit ∧ Instr.mvunpack ∉ [Instr.mvpack, .mvqpack, .rframe, .rmotion] ∧
    Instr.mvunpack ∉ [Instr.ropen, .rframe, .rmotion] :=
  ⟨by rfl, by decide, by decide, by decide, by decide, by decide, by decide⟩

theorem witness_RframeReadsTheNextUnitOrEnds :
    reading.fault = false ∧ reading.cfgOk = true ∧ reading.rstate = .frame ∧
    find reading.sentinel reading.inp reading.cur = some 1 ∧ reading.admits .pb (1 - reading.cur) ∧
    ¬ (reading.mode = 2 ∧ 0 < reading.rk) ∧ reading.rk + 1 ≤ Config.cntMax := by decide
theorem witness_RframeReadsTheNextUnitOrEnds_motion :
    let s : State := { reading with cur := 5, rk := 1 }
    s.fault = false ∧ s.cfgOk = true ∧ s.rstate = .frame ∧ find s.sentinel s.inp s.cur = some 7 ∧
      s.admits .pb (7 - s.cur) ∧ s.mode = 2 ∧ 0 < s.rk := by decide
/-- The stream's end; the state after it; and the two states out of turn. -/
theorem witness_RframeReadsTheNextUnitOrEnds_end :
    let s : State := { reading with cur := 19, rk := 2 }
    let d : State := { small with rstate := .done, eos := true }
    (s.fault = false ∧ s.cfgOk = true ∧ s.rstate = .frame ∧ find s.sentinel s.inp s.cur = none) ∧
    (d.fault = false ∧ d.cfgOk = true ∧ d.rstate = .done) ∧
    (small.fault = false ∧ small.rstate = .closed) ∧ (atMotion.fault = false ∧ atMotion.rstate = .motion) := by decide
theorem witness_RmotionTakesTheFieldByLength :
    atMotion.fault = false ∧ atMotion.cfgOk = true ∧ atMotion.rstate = .motion ∧ atMotion.cur ≤ atMotion.inp.length ∧
    atMotion.mlen + atMotion.slen ≤ atMotion.inp.length - atMotion.cur ∧
    slice atMotion.inp (atMotion.cur + atMotion.mlen) (atMotion.cur + atMotion.mlen + atMotion.slen) = atMotion.sentinel ∧
    atMotion.admits .pb atMotion.mlen ∧ atMotion.rk + 1 ≤ Config.cntMax := by decide
/-- 3 bits left where 4 are the field; the field whole and 0, then 3, bits behind it; 4 other bits behind it; and out of
turn. -/
theorem witness_RmotionTakesTheFieldByLength_faults :
    let s : State := { atMotion with inp := stream.take 14 }
    let t : State := { atMotion with inp := stream.take 15 }
    let u : State := { atMotion with inp := stream.take 18 }
    let v : State := { atMotion with inp := stream.take 15 ++ bits [1, 1, 1, 1] }
    (s.fault = false ∧ s.cfgOk = true ∧ s.rstate = .motion ∧ s.cur ≤ s.inp.length ∧ s.inp.length - s.cur < s.mlen) ∧
    (t.mlen ≤ t.inp.length - t.cur ∧ t.inp.length - t.cur - t.mlen < t.slen) ∧
    (u.mlen ≤ u.inp.length - u.cur ∧ u.inp.length - u.cur - u.mlen < u.slen) ∧
    (v.mlen + v.slen ≤ v.inp.length - v.cur ∧ slice v.inp (v.cur + v.mlen) (v.cur + v.mlen + v.slen) ≠ v.sentinel) ∧
    reading.rstate ≠ .motion := by
  decide
/-- Each row of R194: the event happens without a fault. -/
theorem witness_ReaderTransitionsAreComplete :
    perform (issue .sreset) atMotion = .next start ∧
    perform (.hloadin .readout) atMotion = .next { atMotion with inp := [], cur := 0, rk := 0, rstate := .closed } ∧
    perform (.hwrite 8 1) atMotion = .next { atMotion with cfgOk := false, rstate := .closed } ∧
    perform (issue .cfgcommit) atMotion = .next { atMotion with rstate := .closed } ∧
    perform (issue .ropen) atMotion = .next { atMotion with cur := 0, rk := 0, rstate := .frame } ∧
    perform (issue .rframe) reading = .next { reading with pb := bits [0], cur := 5, rk := 1 } ∧
    perform (issue .rframe) { reading with cur := 5, rk := 1 } = .next atMotion ∧
    perform (issue .rframe) { reading with cur := 19, rk := 2 } =
      .next { reading with cur := 19, rk := 2, rstate := .done, eos := true } ∧
    perform (issue .rframe) { small with rstate := .done, eos := true } = .next { small with rstate := .done, eos := true } ∧
    perform (issue .rmotion) atMotion =
      .next { atMotion with pb := bits [0, 0, 1, 0], cur := 19, rstate := .frame, rk := 2 } ∧
    perform (issue .wopen) reading = .next { reading with wstate := .frame } :=
  ⟨by rfl, by rfl, by rfl, by rfl, by rfl, by rfl, by rfl, by rfl, by rfl, by rfl, by rfl⟩
/-- Each command without a row in its state, and RMOTION on a short stream: it faults. -/
theorem witness_ReaderTransitionsAreComplete_faults :
    (faulted.fault = true ∧ perform (.hloadin .readout) faulted = .next faulted) ∧
    Raises (issue .rframe) atMotion .sequence 0x31 ∧ Raises (issue .rmotion) reading .sequence 0x32 ∧
    Raises (issue .ropen) start .sequence 0x30 ∧
    Raises (issue .rmotion) { atMotion with inp := stream.take 18 } .truncSentinel 3 :=
  ⟨⟨rfl, by rfl⟩, ⟨rfl, by rfl, rfl⟩, ⟨rfl, by rfl, rfl⟩, ⟨rfl, by rfl, rfl⟩, rfl, by rfl, rfl⟩
/-- The input before `CUR` is other bits. -/
theorem witness_CommandsReadInputOnlyFromTheCursor :
    let b : Bits := List.replicate 11 true ++ stream.drop 11
    Instr.rmotion ≠ .sreset ∧ b.length = atMotion.inp.length ∧ (∀ a, atMotion.cur ≤ a → b[a]? = atMotion.inp[a]?) ∧
    b ≠ atMotion.inp := by
  refine ⟨by decide, by decide, fun a ha => ?_, by decide⟩
  have ha' : 11 ≤ a := ha
  rcases Nat.lt_or_ge a 19 with h | h
  · interval_cases a <;> rfl
  · rw [List.getElem?_eq_none (by exact h), List.getElem?_eq_none (by exact h)]

/-- No padding, padding with no sentinel, and padding that holds one behind bit 1. -/
theorem witness_PaddingEndsTheStreamOrIsOneMoreUnit :
    let s (pad : Bits) : State := { reading with inp := stream ++ pad, cur := 19, rk := 2 }
    (s []).ready ∧ (s []).rstate = .frame ∧ (s []).cur = stream.length ∧ find (s []).sentinel [] 0 = none ∧
    find (s []).sentinel (bits [1, 1, 0, 1, 1]) 0 = none ∧ find (s []).sentinel (bits [0, 1, 1, 1, 0]) 0 = some 1 ∧
    (s (bits [0, 1, 1, 1, 0])).admits .pb 1 ∧ (s (bits [0, 1, 1, 1, 0])).rk + 1 ≤ Config.cntMax := by decide

theorem reading_inv : reading.Inv where
  memory := by decide
  cursor := by decide
  written := by decide
  recovered := by decide
  closed := by decide
  config := by decide
  record := by decide
  writerOwes := by decide
  readerOwes := by decide
  done := by decide
  ended := by decide
  leftover := by decide
theorem witness_EndOfStreamIsReached :
    reading.Inv ∧ reading.ready ∧ reading.inp.length / reading.slen < 5 ∧
    exec .rframe reading = .next { reading with pb := bits [0], cur := 5, rk := 1 } ∧ reading.rstate ≠ .done :=
  ⟨reading_inv, by decide, by decide, by rfl, by decide⟩
theorem witness_StepKeepsInvariant :
    State.Inv { reading with pending := [issue .rframe] } ∧
    step { reading with pending := [issue .rframe] } = .next { reading with pb := bits [0], cur := 5, rk := 1 } :=
  ⟨{ reading_inv with }, by rfl⟩

/-- Frames whose motion payload counts only for frame 1. -/
def frames : List CodedFrame := [⟨bits [0], []⟩, ⟨bits [0, 0], bits [0, 0, 1, 0]⟩]
/-- The same frames with the signed field (-1, 1). -/
def signedFrames : List FrameData := [⟨bits [0], []⟩, ⟨bits [0, 0], [-1, 1]⟩]

theorem frames_layout : layout small.sentinel 2 0 frames = stream := by decide
theorem frames_fit : FramesFit small frames where
  payloads := by decide
  motions k f h hd := by
    match k with
    | 0 => simp [motionDue] at hd
    | 1 => simp [frames] at h; subst h; decide
    | k + 2 => simp [frames] at h
  stream := by decide
theorem witness_WriterWritesTheStreamLayout : small.ready ∧ FramesFit small frames ∧ small.mode = 2 :=
  ⟨by decide, frames_fit, rfl⟩
/-- The writer alone, where the stream is longer than `CAP_IN` admits. -/
theorem witness_WriterWritesTheStreamLayout_small_input :
    let s : State := { small with par := { caps with capIn := 18 } }
    s.ready ∧ FramesFit s frames ∧ ¬ StreamLoads s frames :=
  ⟨by decide, { frames_fit with }, by decide⟩
theorem witness_WriterWritesTheStreamLayout_other_modes :
    let s : State := { small with mode := 1 }
    s.ready ∧ s.mode ≠ 2 ∧ FramesFit s frames := by
  refine ⟨by decide, by decide, by decide, fun k f _ hd => ?_, by decide⟩
  simp [motionDue, modeBm] at hd
theorem witness_ReaderRecoversWhatTheWriterWrote :
    small.ready ∧ FramesFit small frames ∧ StreamLoads small frames ∧
    ∀ f ∈ frames, sentinelSafe small.sentinel f.payload :=
  ⟨by decide, frames_fit, by decide, by decide⟩
theorem witness_DecodingLoopRecoversEncodedFrames :
    small.ready ∧ FramesFit small (coded small signedFrames) ∧ StreamLoads small (coded small signedFrames) ∧
    (∀ k f, signedFrames[k]? = some f → motionDue small.mode k = true →
      small.fieldFits f.field ∧ small.admits .fb small.nfields) ∧
    ∀ f ∈ signedFrames, sentinelSafe small.sentinel f.payload := by
  refine ⟨by decide, ⟨by decide, fun k f h hd => ?_, by decide⟩, by decide, fun k f h hd => ?_, by decide⟩
  · match k with
    | 0 => simp [motionDue] at hd
    | 1 => simp [coded, signedFrames] at h; subst h; decide
    | k + 2 => simp [coded, signedFrames] at h
  · match k with
    | 0 => simp [motionDue] at hd
    | 1 => simp [signedFrames] at h; subst h; decide
    | k + 2 => simp [signedFrames] at h

end Sys2Proof.Tests
end

/-! The notation of spec/00: field coding, field width and the search for a pattern (R10 to R12). -/

namespace Sys2Proof.Machine

/-! ## Field coding (R10) -/

@[simp] theorem enc_zero (u : Nat) : enc 0 u = [] := rfl

@[simp] theorem length_enc (w u : Nat) : (enc w u).length = w := by simp [enc]

theorem enc_getElem? {w j : Nat} (u : Nat) (hj : j < w) :
    (enc w u)[j]? = some (decide (u / 2 ^ (w - 1 - j) % 2 = 1)) := by
  simp [enc, hj, beq_eq_decide]

/-- The field of one more bit starts with the most significant bit; the rest is the narrower field. -/
theorem enc_succ (w u : Nat) : enc (w + 1) u = (u / 2 ^ w % 2 == 1) :: enc w u := by
  simp [enc, List.range_succ_eq_map, Function.comp_def, Nat.sub_sub, Nat.add_comm 1]

/-- Bits of weight `2^w` and above do not show in `w` bits. -/
theorem enc_mul_pow_add (w a u : Nat) : enc w (a * 2 ^ w + u) = enc w u := by
  induction w generalizing a with
  | zero => rfl
  | succ w ih =>
    have hsplit : a * 2 ^ (w + 1) + u = a * 2 * 2 ^ w + u := by ring
    have hhigh : (a * 2 * 2 ^ w + u) / 2 ^ w = u / 2 ^ w + a * 2 := by
      rw [Nat.add_comm, Nat.add_mul_div_right _ _ (Nat.two_pow_pos w)]
    rw [hsplit, enc_succ, enc_succ, ih, hhigh, Nat.add_mul_mod_self_right]

@[simp] theorem val_nil : val [] = 0 := rfl

theorem val_cons (b : Bool) (t : Bits) : val (b :: t) = b.toNat * 2 ^ t.length + val t := rfl

theorem val_lt_two_pow (s : Bits) : val s < 2 ^ s.length := by
  induction s with
  | nil => simp
  | cons b t ih =>
    have hb : b.toNat * 2 ^ t.length ≤ 1 * 2 ^ t.length := Nat.mul_le_mul_right _ b.toNat_le
    rw [val_cons, List.length_cons, Nat.pow_succ]
    omega

theorem val_eq_sum (s : Bits) :
    val s = ((List.range s.length).map fun j => (s.getD j false).toNat * 2 ^ (s.length - 1 - j)).sum := by
  induction s with
  | nil => rfl
  | cons b t ih =>
    simp [val_cons, ih, List.range_succ_eq_map, Function.comp_def, Nat.sub_sub, Nat.add_comm 1]

/-- Reading a field back gives the number reduced to its `w` low bits, whatever the number. -/
theorem val_enc (w u : Nat) : val (enc w u) = u % 2 ^ w := by
  induction w with
  | zero => simp [Nat.mod_one]
  | succ w ih =>
    have hbit : (u / 2 ^ w % 2 == 1).toNat = u / 2 ^ w % 2 := by
      obtain h | h := Nat.mod_two_eq_zero_or_one (u / 2 ^ w) <;> simp [h]
    rw [enc_succ, val_cons, length_enc, ih, hbit, Nat.mod_pow_succ]
    ring

theorem val_enc_of_lt {w u : Nat} (h : u < 2 ^ w) : val (enc w u) = u := by
  rw [val_enc, Nat.mod_eq_of_lt h]

theorem enc_val (s : Bits) : enc s.length (val s) = s := by
  induction s with
  | nil => rfl
  | cons b t ih =>
    have htop : (b.toNat * 2 ^ t.length + val t) / 2 ^ t.length = b.toNat := by
      rw [Nat.add_comm, Nat.add_mul_div_right _ _ (Nat.two_pow_pos _), Nat.div_eq_of_lt (val_lt_two_pow t),
        Nat.zero_add]
    rw [val_cons, List.length_cons, enc_succ, enc_mul_pow_add, ih, htop]
    cases b <;> rfl

/-- Settles O22: the bits, the sum, and the two inverses, each by induction on the width or the sequence. -/
theorem fieldCodingIsTheBinaryNumeral : Obligations.FieldCodingIsTheBinaryNumeral :=
  ⟨fun w u h => ⟨length_enc w u, val_enc_of_lt h, fun _ hj => enc_getElem? u hj⟩,
    fun s => ⟨val_eq_sum s, val_lt_two_pow s, enc_val s⟩, enc_zero 0, val_nil⟩

/-! ## Field width (R11) -/

/-- With fuel enough to reach an admissible width, the search stops at the least admissible one from `w` on. -/
theorem leastWidth_le_iff {n fuel w v : Nat} (hfuel : n ≤ 2 ^ (w + fuel)) :
    leastWidth n fuel w ≤ v ↔ w ≤ v ∧ n ≤ 2 ^ v := by
  induction fuel generalizing w with
  | zero => exact ⟨fun h => ⟨h, hfuel.trans (Nat.pow_le_pow_right two_pos h)⟩, fun h => h.1⟩
  | succ fuel ih =>
    rw [leastWidth]
    split
    case isTrue hfit => exact ⟨fun h => ⟨h, hfit.trans (Nat.pow_le_pow_right two_pos h)⟩, fun h => h.1⟩
    case isFalse hnot =>
      have hne : n ≤ 2 ^ v → w ≠ v := fun h e => hnot (e ▸ h)
      rw [ih (by rwa [Nat.add_right_comm])]
      exact ⟨fun ⟨h, hv⟩ => ⟨by omega, hv⟩, fun ⟨h, hv⟩ => ⟨by have := hne hv; omega, hv⟩⟩

theorem bw_le_iff {r w : Nat} : bw r ≤ w ↔ 2 * r + 1 ≤ 2 ^ w := by
  have hfuel : 2 * r + 1 ≤ 2 ^ (0 + (2 * r + 1)) := by
    rw [Nat.zero_add]
    exact Nat.lt_two_pow_self.le
  rw [bw, leastWidth_le_iff hfuel]
  exact and_iff_right w.zero_le

theorem le_two_pow_bw (r : Nat) : 2 * r + 1 ≤ 2 ^ bw r := bw_le_iff.1 le_rfl

@[simp] theorem bw_zero : bw 0 = 0 := rfl

theorem bw_mono {r r' : Nat} (h : r ≤ r') : bw r ≤ bw r' :=
  bw_le_iff.2 (le_trans (by omega) (le_two_pow_bw r'))

/-- A width holds `2r` exactly when it holds its binary digits. -/
theorem bw_eq_length_digits (r : Nat) : bw r = (Nat.digits 2 (2 * r)).length :=
  eq_of_forall_ge_iff fun w => by
    rw [bw_le_iff, Nat.digits_length_le_iff one_lt_two, Nat.succ_le_iff]

/-- Settles O23, from `bw r ≤ w ↔ 2 * r + 1 ≤ 2 ^ w`. -/
theorem fieldWidthIsLeast : Obligations.FieldWidthIsLeast :=
  ⟨fun r => ⟨le_two_pow_bw r, fun _ => bw_le_iff.2⟩, bw_zero, fun r _ => bw_eq_length_digits r,
    fun _ _ => bw_mono, rfl⟩

/-! ## The search for a pattern (R12) -/

/-- The search tries the indices `p` to `len(s)` in order. -/
theorem searchFrom_drop {pat s : Bits} {p : Nat} (hp : p ≤ s.length) :
    searchFrom pat (s.drop p) p = (List.range' p (s.length + 1 - p)).find? fun q => pat <+: s.drop q := by
  induction hrest : s.drop p generalizing p with
  | nil =>
    obtain rfl : p = s.length := le_antisymm hp (List.drop_eq_nil_iff.1 hrest)
    by_cases hpat : pat = [] <;> simp [searchFrom, hpat]
  | cons b t ih =>
    have hlt : p < s.length := by
      by_contra hge
      simp [List.drop_eq_nil_of_le (not_lt.1 hge)] at hrest
    have htail : s.drop (p + 1) = t := by rw [← List.tail_drop, hrest, List.tail_cons]
    have hcount : s.length + 1 - p = (s.length + 1 - (p + 1)) + 1 := by omega
    rw [hcount, List.range'_succ, List.find?_cons, ← ih hlt htail, hrest, searchFrom]
    by_cases hpat : pat <+: b :: t <;> simp [hpat]

/-- The pattern comes next at `p` exactly when it stands whole in `s` there. -/
theorem prefix_drop_iff {pat s : Bits} (hpat : pat ≠ []) (p : Nat) :
    pat <+: s.drop p ↔ p + pat.length ≤ s.length ∧ slice s p (p + pat.length) = pat := by
  have hpos := List.length_pos_of_ne_nil hpat
  rw [slice, Nat.add_sub_cancel_left, List.prefix_iff_eq_take, eq_comm (a := pat)]
  constructor
  · intro h
    have hlen := congrArg List.length h
    rw [List.length_take, List.length_drop] at hlen
    exact ⟨by omega, h⟩
  · exact And.right

theorem lt_length_of_prefix_drop {pat s : Bits} {p : Nat} (hpat : pat ≠ []) (h : pat <+: s.drop p) :
    p < s.length := by
  have hpos := List.length_pos_of_ne_nil hpat
  have hfit := ((prefix_drop_iff hpat p).1 h).1
  omega

theorem find_eq_some_iff {pat s : Bits} {c p : Nat} (hpat : pat ≠ []) (hc : c ≤ s.length) :
    find pat s c = some p ↔ c ≤ p ∧ pat <+: s.drop p ∧ ∀ q, c ≤ q → q < p → ¬ pat <+: s.drop q := by
  rw [find, if_pos hc, searchFrom_drop hc, List.find?_range'_eq_some]
  simp only [decide_eq_true_eq, List.mem_range'_1, Bool.not_eq_true', decide_eq_false_iff_not]
  constructor
  · rintro ⟨hstands, ⟨hcp, -⟩, hleast⟩
    exact ⟨hcp, hstands, hleast⟩
  · rintro ⟨hcp, hstands, hleast⟩
    have hlt := lt_length_of_prefix_drop hpat hstands
    exact ⟨hstands, ⟨hcp, by omega⟩, hleast⟩

theorem find_eq_none_iff {pat s : Bits} {c : Nat} (hpat : pat ≠ []) (hc : c ≤ s.length) :
    find pat s c = none ↔ ∀ q, c ≤ q → ¬ pat <+: s.drop q := by
  rw [find, if_pos hc, searchFrom_drop hc, List.find?_range'_eq_none]
  simp only [Bool.not_eq_true', decide_eq_false_iff_not]
  constructor
  · intro hnone q hcq hstands
    have hlt := lt_length_of_prefix_drop hpat hstands
    exact hnone q hcq (by omega) hstands
  · exact fun hnone q hcq _ => hnone q hcq

/-- Settles O24: the search tries every index from `c` on, in order. -/
theorem findGivesTheFirstOccurrence : Obligations.FindGivesTheFirstOccurrence := by
  intro pat s c hpat hc
  constructor
  · intro p
    simp only [find_eq_some_iff hpat hc, prefix_drop_iff hpat, not_and, and_assoc, ne_eq]
  · simp only [find_eq_none_iff hpat hc, prefix_drop_iff hpat, not_and, ne_eq]

end Sys2Proof.Machine

/-! The registers and the reset state: the derived configuration (R29 to R31), what a write to a register and a read of
one do (R27, R43), the word `STATUS` (R32) and the reset values (R45). -/

namespace Sys2Proof.Machine

/-! ## The faulted condition (R246) -/

theorem unlessFaulted_of_clear {s : State} (h : s.fault = false) (k : Result) : unlessFaulted s k = k := by
  simp [unlessFaulted, h]

theorem unlessFaulted_of_faulted {s : State} (h : s.fault = true) (k : Result) : unlessFaulted s k = .next s := by
  simp [unlessFaulted, h]

/-! ## The derived configuration (R29 to R31) -/

section Inactive
variable {s : State} (h : s.cfgOk = false)
include h

theorem brows_of_inactive : s.brows = 0 := by simp [State.brows, h]
theorem bcols_of_inactive : s.bcols = 0 := by simp [State.bcols, h]
theorem bitwidth_of_inactive : s.bitwidth = 0 := by simp [State.bitwidth, h]
theorem nfields_of_inactive : s.nfields = 0 := by simp [State.nfields, h]
theorem mlen_of_inactive : s.mlen = 0 := by simp [State.mlen, h]

end Inactive

section Active
variable {s : State} (h : s.cfgOk = true)
include h

theorem brows_of_active : s.brows = s.gridRows := by simp [State.brows, h]
theorem bcols_of_active : s.bcols = s.gridCols := by simp [State.bcols, h]
theorem bitwidth_of_active : s.bitwidth = bw s.radius := by simp [State.bitwidth, h]
theorem nfields_of_active : s.nfields = s.brows * s.bcols * 2 := by
  simp [State.nfields, State.cfgFields, brows_of_active h, bcols_of_active h, h]
theorem mlen_of_active : s.mlen = s.nfields * s.bitwidth := by
  simp [State.mlen, State.cfgMlen, State.nfields, bitwidth_of_active h, h]

end Active

/-- Only radius 0 needs no bits: every other has more than one value to tell apart. -/
theorem bw_eq_zero_iff {r : Nat} : bw r = 0 ↔ r = 0 := by
  rw [← Nat.le_zero, bw_le_iff]
  omega

/-- Settles O20: the grid is exact because `BLOCK` divides both sides of the frame, and holds a block because neither
side is 0; the payload is empty exactly when its fields are. -/
theorem derivedConfiguration : Obligations.DerivedConfiguration := by
  refine fun s => ⟨fun hoff => ⟨brows_of_inactive hoff, bcols_of_inactive hoff, bitwidth_of_inactive hoff,
    nfields_of_inactive hoff, mlen_of_inactive hoff⟩, fun hon hlegal => ?_⟩
  obtain ⟨-, hfrows, hfcols, hblock, hrowsDvd, hcolsDvd⟩ := hlegal
  have hrows : 0 < s.brows := brows_of_active hon ▸ Nat.div_pos (Nat.le_of_dvd hfrows hrowsDvd) hblock
  have hcols : 0 < s.bcols := bcols_of_active hon ▸ Nat.div_pos (Nat.le_of_dvd hfcols hcolsDvd) hblock
  have hfields : s.nfields = s.brows * s.bcols * 2 := nfields_of_active hon
  have hblocks : 0 < s.brows * s.bcols := Nat.mul_pos hrows hcols
  have hwidth : s.bitwidth = 0 ↔ s.radius = 0 := by rw [bitwidth_of_active hon, bw_eq_zero_iff]
  have hmlen : s.mlen = 0 ↔ s.radius = 0 := by
    rw [mlen_of_active hon, Nat.mul_eq_zero, hwidth]
    omega
  exact ⟨brows_of_active hon ▸ Nat.div_mul_cancel hrowsDvd, bcols_of_active hon ▸ Nat.div_mul_cancel hcolsDvd,
    bitwidth_of_active hon, hfields, mlen_of_active hon, by omega, by omega, hwidth, hmlen⟩

/-! ## The reset values (R45) -/

theorem reset_status : State.reset.status = 0 := by decide

theorem resetBlock_status (s : State) : (resetBlock s).status = 0 := reset_status

/-- The state a run begins in is what resetting it gives. -/
theorem resetBlock_reset : resetBlock State.reset = State.reset := rfl

/-- Settles O9: SRESET and hardware reset both give `resetBlock`, and the state of reset is a value of it. -/
theorem resetGivesEveryElementItsValue : Obligations.ResetGivesEveryElementItsValue := by
  unfold Obligations.ResetGivesEveryElementItsValue
  intro atReset
  have hvalues (s : State) : atReset (resetBlock s) := by
    have hoff := resetBlock_cfgOk s
    simp [atReset, brows_of_inactive hoff, bcols_of_inactive hoff, bitwidth_of_inactive hoff,
      nfields_of_inactive hoff, mlen_of_inactive hoff, resetBlock_status, Cause.code]
  exact ⟨resetBlock_reset ▸ hvalues State.reset, fun s => ⟨resetBlock s, rfl, rfl, hvalues s, resetBlock_par s⟩⟩

/-! ## The register file (R43) -/

theorem regOfNumber_eq_some_iff {n : Nat} {r : Reg} : regOfNumber n = some r ↔ n = r.number := by
  constructor
  · unfold regOfNumber
    split <;> rintro ⟨⟩ <;> rfl
  · rintro rfl
    cases r <;> rfl

theorem Reg.number_le (r : Reg) : r.number ≤ 20 := by cases r <;> decide

theorem regOfNumber_eq_none {n : Nat} (hn : 20 < n) : regOfNumber n = none := by
  cases hr : regOfNumber n with
  | none => rfl
  | some r =>
    have hle := r.number_le
    rw [← regOfNumber_eq_some_iff.1 hr] at hle
    omega

theorem readRegister_absent {n : Nat} (hn : 20 < n) (s : State) : readRegister n s = 0 := by
  simp [readRegister, regOfNumber_eq_none hn]

theorem perform_hread (n : Nat) (s : State) :
    perform (.hread n) s = .next { s with replies := s.replies ++ [.value (readRegister n s)] } := rfl

theorem perform_hwrite_mode (v : Word) (s : State) :
    perform (.hwrite 4 v) s = unlessFaulted s (.next { configWritten s with mode := v.setWidth 2 }) := rfl
theorem perform_hwrite_frows (v : Word) (s : State) :
    perform (.hwrite 5 v) s = unlessFaulted s (.next { configWritten s with frows := v.toNat }) := rfl
theorem perform_hwrite_fcols (v : Word) (s : State) :
    perform (.hwrite 6 v) s = unlessFaulted s (.next { configWritten s with fcols := v.toNat }) := rfl
theorem perform_hwrite_block (v : Word) (s : State) :
    perform (.hwrite 7 v) s = unlessFaulted s (.next { configWritten s with block := v.toNat }) := rfl
theorem perform_hwrite_radius (v : Word) (s : State) :
    perform (.hwrite 8 v) s = unlessFaulted s (.next { configWritten s with radius := v.toNat }) := rfl

/-- A write to a register that is neither `CMD` nor one of the configuration, or to none, does nothing. -/
theorem perform_hwrite_readOnly {n : Nat} (hn : 1 ≤ n ∧ n ≤ 3 ∨ 9 ≤ n) (v : Word) (s : State) :
    perform (.hwrite n v) s = .next s := by
  have hne (r : Reg) (hr : r ∈ [Reg.cmd, .mode, .frows, .fcols, .block, .radius]) : regOfNumber n ≠ some r := by
    rw [ne_eq, regOfNumber_eq_some_iff]
    rintro rfl
    revert hn hr
    cases r <;> decide
  simp only [perform, writeRegister]
  split
  case h_7 => rfl
  all_goals exact absurd ‹_› (hne _ (by decide))

/-- Settles O16: the five writes, each `unlessFaulted`. -/
theorem configurationWriteClosesSessions : Obligations.ConfigurationWriteClosesSessions := by
  refine fun s v => ⟨fun hclear => ?_, fun hfault n hlo hhi => ?_⟩
  · simp only [perform_hwrite_mode, perform_hwrite_frows, perform_hwrite_fcols, perform_hwrite_block,
      perform_hwrite_radius, unlessFaulted_of_clear hclear]
    exact ⟨rfl, rfl, rfl, rfl, rfl⟩
  · interval_cases n <;> exact unlessFaulted_of_faulted hfault _

/-- With `FAULT = 0` a configuration register reads back the word written, `MODE` its two low bits. -/
theorem readRegister_of_hwrite {s : State} (hclear : s.fault = false) (v : Word) {n : Nat} (hlo : 4 ≤ n) (hhi : n ≤ 8) :
    ∃ t, perform (.hwrite n v) s = .next t ∧ t.fault = false ∧
      readRegister n t = if n = 4 then (v.extractLsb' 0 2).toNat else v.toNat := by
  have hmode : v.setWidth 2 = v.extractLsb' 0 2 := BitVec.setWidth_eq_extractLsb' (by decide)
  interval_cases n
  · exact ⟨_, (perform_hwrite_mode v s).trans (unlessFaulted_of_clear hclear _), hclear, congrArg BitVec.toNat hmode⟩
  · exact ⟨_, (perform_hwrite_frows v s).trans (unlessFaulted_of_clear hclear _), hclear, rfl⟩
  · exact ⟨_, (perform_hwrite_fcols v s).trans (unlessFaulted_of_clear hclear _), hclear, rfl⟩
  · exact ⟨_, (perform_hwrite_block v s).trans (unlessFaulted_of_clear hclear _), hclear, rfl⟩
  · exact ⟨_, (perform_hwrite_radius v s).trans (unlessFaulted_of_clear hclear _), hclear, rfl⟩

/-- Settles O17: configuration registers store, reads only report, and the other numbers ignore a write. -/
theorem registerNumbersAndAccess : Obligations.RegisterNumbersAndAccess :=
  fun s => ⟨fun hclear v _ hlo hhi => readRegister_of_hwrite hclear v hlo hhi, fun n => perform_hread n s, rfl,
    fun _ hn => readRegister_absent hn s, fun _ v hn => perform_hwrite_readOnly hn v s⟩

/-! ## The word `STATUS` (R32) -/

section Status
variable (s : State)

/-- `STATUS` is the two session states with the four flags behind them. -/
theorem status_eq_concat :
    s.status = ((((0#24 ++ s.rstate.code ++ s.wstate.code).concat s.trailing).concat s.eos).concat s.fault).concat
      s.cfgOk := rfl

theorem getLsbD_status_cfgOk : s.status.getLsbD 0 = s.cfgOk := by
  rw [status_eq_concat, BitVec.getLsbD_concat_zero]

theorem getLsbD_status_fault : s.status.getLsbD 1 = s.fault := by
  rw [status_eq_concat, BitVec.getLsbD_concat_succ, BitVec.getLsbD_concat_zero]

theorem getLsbD_status_eos : s.status.getLsbD 2 = s.eos := by
  simp only [status_eq_concat, BitVec.getLsbD_concat_succ, BitVec.getLsbD_concat_zero]

theorem getLsbD_status_trailing : s.status.getLsbD 3 = s.trailing := by
  simp only [status_eq_concat, BitVec.getLsbD_concat_succ, BitVec.getLsbD_concat_zero]

/-- Above the four flags stand the session states. -/
theorem extractLsb'_status (i n : Nat) :
    s.status.extractLsb' (i + 4) n = (0#24 ++ s.rstate.code ++ s.wstate.code).extractLsb' i n := by
  rw [State.status]
  iterate 4 rw [BitVec.extractLsb'_append_eq_of_le (by omega)]
  rfl

theorem extractLsb'_status_wstate : s.status.extractLsb' 4 2 = s.wstate.code := by
  rw [extractLsb'_status s 0, BitVec.extractLsb'_append_eq_of_add_le (by decide), BitVec.extractLsb'_eq_self]

theorem extractLsb'_status_rstate : s.status.extractLsb' 6 2 = s.rstate.code := by
  rw [extractLsb'_status s 2, BitVec.extractLsb'_append_eq_of_le (by decide),
    BitVec.extractLsb'_append_eq_of_add_le (by decide), BitVec.extractLsb'_eq_self]

theorem extractLsb'_status_upper : s.status.extractLsb' 8 24 = 0 := by
  rw [extractLsb'_status s 4, BitVec.extractLsb'_append_eq_of_le (by decide),
    BitVec.extractLsb'_append_eq_of_le (by decide)]
  rfl

end Status

/-- Settles O18: each field stands at its bits, and reading register 1 is a read. -/
theorem statusWordLayout : Obligations.StatusWordLayout :=
  fun s => ⟨getLsbD_status_cfgOk s, getLsbD_status_fault s, getLsbD_status_eos s, getLsbD_status_trailing s,
    extractLsb'_status_wstate s, extractLsb'_status_rstate s, extractLsb'_status_upper s, rfl, rfl, perform_hread 1 s⟩

end Sys2Proof.Machine

/-! The command words (R90, R91, R93): which words the decoder accepts, and what writing one of the others to `CMD`
does. -/

namespace Sys2Proof

/-! ## The words the decoder accepts -/

theorem decodeEncode (i : Instr) : Laws.DecodeEncode.Statement i := by
  cases i with
  | cfgcommit => exact Laws.DecodeEncode.cfgcommit
  | sreset => exact Laws.DecodeEncode.sreset
  | mvpack => exact Laws.DecodeEncode.mvpack
  | mvunpack => exact Laws.DecodeEncode.mvunpack
  | mvqpack => exact Laws.DecodeEncode.mvqpack
  | mvunpackq => exact Laws.DecodeEncode.mvunpackq
  | wopen => exact Laws.DecodeEncode.wopen
  | wframe => exact Laws.DecodeEncode.wframe
  | wmotion => exact Laws.DecodeEncode.wmotion
  | ropen => exact Laws.DecodeEncode.ropen
  | rframe => exact Laws.DecodeEncode.rframe
  | rmotion => exact Laws.DecodeEncode.rmotion

/-- The three fields cover the word. -/
theorem wordOf_fieldsOf (w : Word) : wordOf (fieldsOf w) = w := by
  simp only [wordOf, fieldsOf]
  rw [BitVec.extractLsb'_append_extractLsb'_eq_extractLsb' (by decide),
    BitVec.extractLsb'_append_extractLsb'_eq_extractLsb' (by decide), BitVec.extractLsb'_eq_self]

theorem cmd8_of_commandOf {grp fn : Nat} {i : Instr} (h : commandOf grp fn = some i) :
    i.cmd8.zero = 0 ∧ i.cmd8.grp.toNat = grp ∧ i.cmd8.fn.toNat = fn := by
  unfold commandOf at h
  split at h <;> cases h <;> exact ⟨rfl, rfl, rfl⟩

theorem Cmd8.eq_of_fields {c d : Cmd8} (hzero : c.zero = d.zero) (hgrp : c.grp.toNat = d.grp.toNat)
    (hfn : c.fn.toNat = d.fn.toNat) : c = d := by
  cases c
  cases d
  exact (Cmd8.mk.injEq ..).mpr ⟨hzero, BitVec.eq_of_toNat_eq hgrp, BitVec.eq_of_toNat_eq hfn⟩

theorem fieldsOf_of_decode {w : Word} {i : Instr} (h : decode w = .ok i) :
    (fieldsOf w).zero = 0 ∧ commandOf (fieldsOf w).grp.toNat (fieldsOf w).fn.toNat = some i := by
  simp only [decode] at h
  split at h
  case isFalse => cases h
  case isTrue hzero =>
    split at h
    case isFalse => cases h
    case isTrue =>
      split at h
      case h_2 => cases h
      case h_1 hcommand =>
        cases h
        exact ⟨eq_of_beq hzero, hcommand⟩

/-- The decoder ignores no bit: a word that decodes has the fields of its command, and the fields are the whole word. -/
theorem decode_eq_ok_iff {w : Word} {i : Instr} : decode w = .ok i ↔ w = encode i := by
  constructor
  · intro h
    obtain ⟨hzero, hcommand⟩ := fieldsOf_of_decode h
    obtain ⟨hzero', hgrp, hfn⟩ := cmd8_of_commandOf hcommand
    have hfields : i.cmd8 = fieldsOf w := Cmd8.eq_of_fields (hzero'.trans hzero.symm) hgrp hfn
    rw [encode, hfields, wordOf_fieldsOf]
  · rintro rfl
    obtain ⟨-, -, hdecode⟩ := decodeEncode i
    exact hdecode

/-- An illegal word (R93) is what the decoder rejects. -/
theorem exists_decode_error_iff {w : Word} : (∃ e, decode w = .error e) ↔ ∀ i, w ≠ encode i := by
  simp only [ne_eq, ← decode_eq_ok_iff]
  cases decode w <;> simp

/-! ## The opcodes -/

/-- The rows of the opcode map (R91), in its order. -/
def Instr.all : List Instr :=
  [.cfgcommit, .sreset, .mvpack, .mvunpack, .mvqpack, .mvunpackq, .wopen, .wframe, .wmotion, .ropen, .rframe, .rmotion]

theorem Instr.mem_all (i : Instr) : i ∈ Instr.all := by cases i <;> decide

/-- The twelve values of bits 7:0 that R91 gives a command. -/
def opcodes : List Nat := [0x01, 0x02, 0x10, 0x11, 0x12, 0x13, 0x20, 0x21, 0x22, 0x30, 0x31, 0x32]

theorem opcodes_eq_map : opcodes = Instr.all.map fun i => (encode i).toNat := by decide

theorem mem_opcodes_iff {n : Nat} : n ∈ opcodes ↔ ∃ i, (encode i).toNat = n := by
  simp only [opcodes_eq_map, List.mem_map, Instr.mem_all, true_and]

/-- A word with bits 31:8 zero is its low byte. -/
theorem toNat_eq_low_byte {w : Word} (h : w.extractLsb' 8 24 = 0) : w.toNat = (w.extractLsb' 0 8).toNat := by
  have hsplit : w = w.extractLsb' 8 24 ++ w.extractLsb' 0 8 :=
    (BitVec.extractLsb'_append_extractLsb' (w := 24) (len := 8)).symm
  calc w.toNat = (w.extractLsb' 8 24 ++ w.extractLsb' 0 8).toNat := congrArg BitVec.toNat hsplit
    _ = (w.extractLsb' 8 24).toNat <<< 8 ||| (w.extractLsb' 0 8).toNat := BitVec.toNat_append ..
    _ = (w.extractLsb' 0 8).toNat := by
      rw [h, BitVec.ofNat_eq_ofNat, BitVec.toNat_zero, Nat.zero_shiftLeft, Nat.zero_or]

theorem encode_upper_bits (i : Instr) : (encode i).extractLsb' 8 24 = 0 := by cases i <;> decide

/-- A word is a command exactly when bits 31:8 are 0 and the low byte is an opcode. -/
theorem exists_eq_encode_iff {w : Word} :
    (∃ i, w = encode i) ↔ w.extractLsb' 8 24 = 0 ∧ (w.extractLsb' 0 8).toNat ∈ opcodes := by
  rw [mem_opcodes_iff]
  constructor
  · rintro ⟨i, rfl⟩
    exact ⟨encode_upper_bits i, i, toNat_eq_low_byte (encode_upper_bits i)⟩
  · rintro ⟨hupper, i, hi⟩
    exact ⟨i, BitVec.eq_of_toNat_eq ((toNat_eq_low_byte hupper).trans hi.symm)⟩

theorem illegal_word_iff {w : Word} :
    (w.extractLsb' 8 24 ≠ 0 ∨ (w.extractLsb' 0 8).toNat ∉ opcodes) ↔ ∀ i, w ≠ encode i := by
  rw [← not_and_or, ← exists_eq_encode_iff, not_exists]

end Sys2Proof

namespace Sys2Proof.Machine

/-! ## An illegal word written to `CMD` (R93) -/

theorem perform_hwrite_illegal {w : Word} {s : State} (hw : ∀ i, w ≠ encode i) (hclear : s.fault = false) :
    perform (.hwrite 0 w) s = .next (raise s .illegalCommand w.toNat) := by
  obtain ⟨e, he⟩ := exists_decode_error_iff.2 hw
  exact command_eq_next.2 (.inr ⟨e, he, .inr ⟨hclear, rfl⟩⟩)

/-- Settles O4: the legal words are the opcodes padded with zeros, and the decoder rejects every other word. -/
theorem illegalWordsRaiseIllegalCommand : Obligations.IllegalWordsRaiseIllegalCommand :=
  fun _ => ⟨illegal_word_iff, fun hw _ hclear => perform_hwrite_illegal hw hclear,
    illegal_word_iff.1 (.inr (by decide))⟩

end Sys2Proof.Machine

/-! The system commands: the checks of CFGCOMMIT in the order of the rule, and what it makes of a configuration that
passes them (R121). -/

namespace Sys2Proof.Machine

/-! ## The first condition of a list to hold -/

theorem not_firstToHold_nil (n : Nat) : ¬ FirstToHold [] n := by
  rintro ⟨c, hc, -⟩
  simp at hc

theorem firstToHold_cons_zero {c : Prop} {cs : List Prop} : FirstToHold (c :: cs) 0 ↔ c := by
  constructor
  · rintro ⟨d, hd, hholds, -⟩
    cases hd
    exact hholds
  · exact fun hc => ⟨c, rfl, hc, fun m _ hm => absurd hm m.not_lt_zero⟩

theorem firstToHold_cons_succ {c : Prop} {cs : List Prop} {n : Nat} :
    FirstToHold (c :: cs) (n + 1) ↔ ¬ c ∧ FirstToHold cs n := by
  constructor
  · rintro ⟨d, hd, hholds, hfirst⟩
    exact ⟨hfirst 0 c n.succ_pos rfl, d, hd, hholds, fun m e hm => hfirst (m + 1) e (Nat.succ_lt_succ hm)⟩
  · rintro ⟨hc, d, hd, hholds, hfirst⟩
    refine ⟨d, hd, hholds, fun m e hm he => ?_⟩
    cases m with
    | zero => cases he; exact hc
    | succ m => exact hfirst m e (Nat.lt_of_succ_lt_succ hm) he

/-- `r` is the number of the first condition of `cs` to hold, when they are numbered from `k` on. -/
def ReportsFirst (k : Nat) (cs : List Prop) (r : Option Nat) : Prop :=
  ∀ m, r = some m ↔ ∃ n, m = n + k ∧ FirstToHold cs n

theorem reportsFirst_nil (k : Nat) : ReportsFirst k [] none := by
  simp [ReportsFirst, not_firstToHold_nil]

/-- A check in front of others takes the number before theirs. -/
theorem ReportsFirst.ite {k : Nat} {c : Prop} [Decidable c] {cs : List Prop} {r : Option Nat}
    (hr : ReportsFirst (k + 1) cs r) : ReportsFirst k (c :: cs) (if c then some k else r) := by
  intro m
  rw [← Nat.or_exists_add_one]
  by_cases hc : c
  · simp [hc, firstToHold_cons_zero, firstToHold_cons_succ, eq_comm]
  · simp [hc, firstToHold_cons_zero, firstToHold_cons_succ, hr m, Nat.add_assoc, Nat.add_comm 1]

/-! ## The checks of CFGCOMMIT (R121) -/

theorem configCheck_reportsFirst (s : State) : ReportsFirst 1 s.commitFaults s.configCheck :=
  (reportsFirst_nil 7).ite.ite.ite.ite.ite.ite

/-- The number reported is the place of the first check to fail, counted from 1. -/
theorem configCheck_eq_some_iff {s : State} {m : Nat} :
    s.configCheck = some m ↔ ∃ n, m = n + 1 ∧ FirstToHold s.commitFaults n :=
  configCheck_reportsFirst s m

theorem configCheck_eq_none_iff {s : State} : s.configCheck = none ↔ s.configLegal := by
  simp [State.configCheck, State.configLegal, ite_eq_iff, Nat.dvd_iff_mod_eq_zero, Nat.pos_iff_ne_zero]

theorem configLegal_iff_no_commitFault {s : State} :
    s.configLegal ↔ ∀ (m : Nat) (d : Prop), s.commitFaults[m]? = some d → ¬ d := by
  have hmem : (∀ (m : Nat) (d : Prop), s.commitFaults[m]? = some d → ¬ d) ↔ ∀ d ∈ s.commitFaults, ¬ d := by
    simp only [List.mem_iff_getElem?, forall_exists_index]
    exact forall_comm
  simp only [hmem, State.commitFaults, List.forall_mem_cons]
  simp [State.configLegal, modeReserved, Nat.dvd_iff_mod_eq_zero, Nat.pos_iff_ne_zero]

/-! ## What CFGCOMMIT does -/

section Clear
variable {s : State} (hclear : s.fault = false)
include hclear

theorem execCfgcommit_of_firstToHold {n : Nat} (hfirst : FirstToHold s.commitFaults n) :
    execCfgcommit s = .next (raise s .configInvalid (n + 1)) :=
  execCfgcommit_eq_next.2 (.inr (.inl ⟨hclear, n + 1, configCheck_eq_some_iff.2 ⟨n, rfl, hfirst⟩, rfl⟩))

theorem execCfgcommit_of_legal (hlegal : s.configLegal) (hfields : s.cfgFields ≤ Config.cntMax)
    (hmlen : s.cfgMlen ≤ Config.cntMax) : execCfgcommit s = .next { closeSessions s with cfgOk := true } :=
  execCfgcommit_eq_next.2 (.inr (.inr ⟨hclear, configCheck_eq_none_iff.2 hlegal, hfields, hmlen, rfl⟩))

end Clear

/-- Settles O21: the checks are made in the order of the list, and a configuration that passes them all is legal, so that
its derived registers are those of an active legal configuration (O20). -/
theorem cfgcommitChecksThenActivates : Obligations.CfgcommitChecksThenActivates := by
  refine fun s hclear => ⟨fun n hfirst => execCfgcommit_of_firstToHold hclear hfirst, fun hpass hfields hmlen => ?_⟩
  have hlegal : s.configLegal := configLegal_iff_no_commitFault.2 hpass
  have hderived := (derivedConfiguration { closeSessions s with cfgOk := true }).2 rfl hlegal
  obtain ⟨hrows, hcols, hwidth, hnfields, hpayload, -⟩ := hderived
  exact ⟨_, execCfgcommit_of_legal hclear hlegal hfields hmlen, rfl, hrows, hcols, hwidth, hnfields, hpayload⟩

end Sys2Proof.Machine

/-! The pure functions of the MV unit (R141 to R145): which lists pack, where each field stands, and that packing and
unpacking are inverse. -/

namespace Sys2Proof.Machine

/-! ## The range check (R141) -/

/-- `u` fits in `w` unsigned bits. -/
abbrev FitsIn (w : Nat) (u : Int) : Prop := 0 ≤ u ∧ u < 2 ^ w

theorem misfit_eq_true_iff {w : Nat} {u : Int} : misfit w u = true ↔ u < 0 ∨ 2 ^ w ≤ u := by simp [misfit]

theorem misfit_eq_false_iff {w : Nat} {u : Int} : misfit w u = false ↔ FitsIn w u := by simp [misfit]

theorem firstMisfit_eq_none_iff {l : List Int} {w : Nat} : firstMisfit l w = none ↔ ∀ u ∈ l, FitsIn w u := by
  simp only [firstMisfit, List.findIdx?_eq_none_iff, misfit_eq_false_iff]

theorem firstMisfit_eq_some_iff {l : List Int} {w i : Nat} :
    firstMisfit l w = some i ↔
      (∃ u, l[i]? = some u ∧ (u < 0 ∨ 2 ^ w ≤ u)) ∧ ∀ (j : Nat) (u : Int), j < i → l[j]? = some u → FitsIn w u := by
  simp only [firstMisfit, List.findIdx?_eq_some_iff_getElem, List.getElem?_eq_some_iff, misfit_eq_true_iff,
    not_or, not_lt, not_le]
  constructor
  · rintro ⟨hi, hmisfit, hfirst⟩
    refine ⟨⟨l[i], ⟨hi, rfl⟩, hmisfit⟩, ?_⟩
    rintro j u hj ⟨-, rfl⟩
    exact hfirst j hj
  · rintro ⟨⟨u, ⟨hi, rfl⟩, hmisfit⟩, hfirst⟩
    exact ⟨hi, hmisfit, fun j hj => hfirst j _ hj ⟨hj.trans hi, rfl⟩⟩

theorem pack_eq_ok_iff {l : List Int} {w : Nat} {b : Bits} :
    pack l w = .ok b ↔ (∀ u ∈ l, FitsIn w u) ∧ b = packFields l w := by
  rw [← firstMisfit_eq_none_iff, pack]
  cases firstMisfit l w <;> simp [eq_comm]

theorem pack_eq_error_iff {l : List Int} {w i : Nat} : pack l w = .error i ↔ firstMisfit l w = some i := by
  rw [pack]
  cases firstMisfit l w <;> simp

theorem pack_of_fits {l : List Int} {w : Nat} (h : ∀ u ∈ l, FitsIn w u) : pack l w = .ok (packFields l w) :=
  pack_eq_ok_iff.2 ⟨h, rfl⟩

theorem pack_succeeds_iff {l : List Int} {w : Nat} : (∃ b, pack l w = .ok b) ↔ ∀ u ∈ l, FitsIn w u := by
  simp [pack_eq_ok_iff]

/-! ## The fields of a sequence (R97, R141, R142) -/

theorem getElem?_slice {s : Bits} {i j k : Nat} (hk : k < j - i) : (slice s i j)[k]? = s[i + k]? := by
  rw [slice, List.getElem?_take_of_lt hk, List.getElem?_drop]

section Field
variable {w : Nat} {a : Bits} (ha : a.length = w)
include ha

theorem slice_field_zero (s : Bits) : slice (a ++ s) (0 * w) ((0 + 1) * w) = a := by
  simp [slice, ← ha]

/-- Behind the first field stand the fields of the rest. -/
theorem slice_field_succ (s : Bits) (i : Nat) :
    slice (a ++ s) ((i + 1) * w) ((i + 1 + 1) * w) = slice s (i * w) ((i + 1) * w) := by
  have hwidth (i : Nat) : (i + 1) * w - i * w = w := by rw [Nat.succ_mul, Nat.add_sub_cancel_left]
  rw [slice, slice, hwidth, hwidth, Nat.succ_mul, Nat.add_comm, ← ha, List.drop_length_add_append]

theorem unpackFields_append (s : Bits) (n : Nat) :
    unpackFields (a ++ s) w (n + 1) = (val a : Int) :: unpackFields s w n := by
  simp only [unpackFields, List.range_succ_eq_map, List.map_cons, List.map_map, slice_field_zero ha]
  congr 1
  exact List.map_congr_left fun i _ => congrArg (fun b => (val b : Int)) (slice_field_succ ha s i)

end Field

@[simp] theorem packFields_nil (w : Nat) : packFields [] w = [] := rfl

theorem packFields_cons (u : Int) (l : List Int) (w : Nat) :
    packFields (u :: l) w = enc w u.toNat ++ packFields l w := rfl

@[simp] theorem length_packFields (l : List Int) (w : Nat) : (packFields l w).length = l.length * w := by
  simp [packFields, List.length_flatMap]

/-- The `i`-th group of `w` bits is the field of element `i`. -/
theorem slice_packFields {l : List Int} {i : Nat} {u : Int} (w : Nat) (hu : l[i]? = some u) :
    slice (packFields l w) (i * w) ((i + 1) * w) = enc w u.toNat := by
  induction l generalizing i with
  | nil => simp at hu
  | cons v l ih =>
    rw [packFields_cons]
    cases i with
    | zero =>
      obtain rfl : v = u := by simpa using hu
      exact slice_field_zero (length_enc w _) _
    | succ i =>
      rw [slice_field_succ (length_enc w _)]
      exact ih (by simpa using hu)

/-- Bit `j` of field `i` is that binary digit of element `i`. -/
theorem getElem?_packFields {l : List Int} {w i j : Nat} {u : Int} (hu : l[i]? = some u) (hnonneg : 0 ≤ u)
    (hj : j < w) : (packFields l w)[i * w + j]? = some (decide (u / 2 ^ (w - 1 - j) % 2 = 1)) := by
  lift u to Nat using hnonneg
  have hwidth : j < (i + 1) * w - i * w := by rwa [Nat.succ_mul, Nat.add_sub_cancel_left]
  rw [← getElem?_slice hwidth, slice_packFields w hu, Int.toNat_natCast, enc_getElem? _ hj]
  norm_cast

/-- Settles O25: success is that no element misfits, and the `i`-th group of `w` bits is then field `i`; failure is at the
first misfit. -/
theorem packWritesFieldsOrFailsAtTheFirst : Obligations.PackWritesFieldsOrFailsAtTheFirst := by
  refine fun l w => ⟨fun hfits => ?_, fun i => pack_eq_error_iff.trans firstMisfit_eq_some_iff⟩
  exact ⟨packFields l w, pack_of_fits hfits, length_packFields l w, fun i u hu => slice_packFields w hu⟩

/-! ## Packing and unpacking are inverse (R143) -/

@[simp] theorem length_unpackFields (s : Bits) (w n : Nat) : (unpackFields s w n).length = n := by
  simp [unpackFields]

theorem getElem?_unpackFields {n i : Nat} (s : Bits) (w : Nat) (hi : i < n) :
    (unpackFields s w n)[i]? = some (val (slice s (i * w) ((i + 1) * w)) : Int) := by
  simp [unpackFields, hi]

/-- A field of `w` bits is a number below `2^w`. -/
theorem val_slice_field_lt (s : Bits) (w i : Nat) : val (slice s (i * w) ((i + 1) * w)) < 2 ^ w := by
  refine (val_lt_two_pow _).trans_le (Nat.pow_le_pow_right two_pos ?_)
  rw [slice, Nat.succ_mul, Nat.add_sub_cancel_left]
  exact List.length_take_le w _

theorem fitsIn_of_mem_unpackFields {s : Bits} {w n : Nat} {u : Int} (hu : u ∈ unpackFields s w n) : FitsIn w u := by
  obtain ⟨i, -, rfl⟩ := List.mem_map.1 hu
  exact ⟨Int.natCast_nonneg _, mod_cast val_slice_field_lt s w i⟩

theorem unpackFields_packFields {l : List Int} {w : Nat} (hfits : ∀ u ∈ l, FitsIn w u) :
    unpackFields (packFields l w) w l.length = l := by
  induction l with
  | nil => rfl
  | cons u l ih =>
    obtain ⟨⟨hnonneg, hlt⟩, hrest⟩ := List.forall_mem_cons.1 hfits
    lift u to Nat using hnonneg
    rw [packFields_cons, List.length_cons, unpackFields_append (length_enc w _), ih hrest, Int.toNat_natCast,
      val_enc_of_lt (mod_cast hlt)]

theorem enc_val_of_length {s : Bits} {w : Nat} (hlen : s.length = w) : enc w (val s) = s := by
  subst hlen
  exact enc_val s

theorem packFields_unpackFields {s : Bits} {w n : Nat} (hlen : s.length = n * w) :
    packFields (unpackFields s w n) w = s := by
  induction n generalizing s with
  | zero =>
    obtain rfl : s = [] := by simpa using hlen
    rfl
  | succ n ih =>
    rw [Nat.succ_mul] at hlen
    have hfirst : (s.take w).length = w := List.length_take_of_le (by omega)
    have hrest : (s.drop w).length = n * w := by rw [List.length_drop, hlen, Nat.add_sub_cancel]
    calc packFields (unpackFields s w (n + 1)) w
        = packFields (unpackFields (s.take w ++ s.drop w) w (n + 1)) w := by rw [List.take_append_drop]
      _ = enc w (val (s.take w)) ++ s.drop w := by
        rw [unpackFields_append hfirst, packFields_cons, ih hrest, Int.toNat_natCast]
      _ = s.take w ++ s.drop w := congrArg (· ++ s.drop w) (enc_val_of_length hfirst)
      _ = s := List.take_append_drop w s

theorem unpack_of_length {s : Bits} {w n : Nat} (hlen : s.length = n * w) :
    unpack s w n = .ok (unpackFields s w n) := if_pos hlen

theorem unpack_of_length_ne {s : Bits} {w n : Nat} (hlen : s.length ≠ n * w) :
    unpack s w n = .error s.length := if_neg hlen

/-- Settles O26: both directions by induction over the fields. -/
theorem packAndUnpackRoundTrip : Obligations.PackAndUnpackRoundTrip := by
  refine ⟨fun w n l hlen hrange => ?_, fun w n s hlen => ?_⟩
  · subst hlen
    have hfits : ∀ u ∈ l, FitsIn w u := fun u hu => (hrange u hu).imp_right Int.lt_of_le_sub_one
    refine ⟨_, pack_of_fits hfits, ?_⟩
    rw [unpack_of_length (length_packFields l w), unpackFields_packFields hfits]
  · refine ⟨_, unpack_of_length hlen, ?_⟩
    rw [pack_of_fits fun _ => fitsIn_of_mem_unpackFields, packFields_unpackFields hlen]

/-! ## Signed fields (R144, R145) -/

section Signed
variable (l : List Int) (r : Nat)

@[simp] theorem length_quant : (quant l r).length = l.length := List.length_map ..

@[simp] theorem length_dequant : (dequant l r).length = l.length := List.length_map ..

theorem getElem?_quant (i : Nat) : (quant l r)[i]? = l[i]?.map (· + (r : Int)) := List.getElem?_map ..

theorem getElem?_dequant (i : Nat) : (dequant l r)[i]? = l[i]?.map (· - (r : Int)) := List.getElem?_map ..

@[simp] theorem dequant_zero : dequant l 0 = l := by simp [dequant]

@[simp] theorem dequant_quant : dequant (quant l r) r = l := by simp [dequant, quant, Function.comp_def]

@[simp] theorem quant_dequant : quant (dequant l r) r = l := by simp [dequant, quant, Function.comp_def]

/-- The shifted elements fit in `w` bits exactly when the signed ones lie in the window of `2^w` values from `-r` on. -/
theorem quant_fits_iff (w : Nat) :
    (∀ u ∈ quant l r, FitsIn w u) ↔ ∀ v ∈ l, -(r : Int) ≤ v ∧ v ≤ 2 ^ w - 1 - r := by
  rw [quant, List.forall_mem_map]
  refine forall₂_congr fun v _ => ?_
  constructor <;> rintro ⟨hlo, hhi⟩ <;> constructor <;> omega

end Signed

theorem pack_quant_succeeds_iff {l : List Int} {r w : Nat} :
    (∃ b, pack (quant l r) w = .ok b) ↔ ∀ v ∈ l, -(r : Int) ≤ v ∧ v ≤ 2 ^ w - 1 - r :=
  pack_succeeds_iff.trans (quant_fits_iff l r w)

/-- The window reaches up to `r`, and further when its width holds more than the `2r + 1` values it is for. -/
theorem upper_bound_of_window (r : Nat) :
    (r : Int) ≤ 2 ^ bw r - 1 - r ∧ ((r : Int) < 2 ^ bw r - 1 - r ↔ 2 * r + 1 < 2 ^ bw r) := by
  have hwide : 2 * r + 1 ≤ 2 ^ bw r := le_two_pow_bw r
  have hcast : (2 : Int) ^ bw r = ((2 ^ bw r : Nat) : Int) := by norm_cast
  rw [hcast]
  omega

/-- Settles O27: the shifted value must fit in `bw(R)` bits, which hold at least `2R + 1` values. -/
theorem signedRangeAccepted : Obligations.SignedRangeAccepted := by
  refine ⟨fun l r => pack_quant_succeeds_iff, upper_bound_of_window, fun v => ?_, rfl⟩
  rw [pack_quant_succeeds_iff, List.forall_mem_singleton]
  rfl

end Sys2Proof.Machine

/-! The commands of the MV unit (R146 to R152): their faults in order, what each leaves in its buffer, the round trips, and
that they touch no framer state. -/

namespace Sys2Proof.Machine

theorem unitCommand_unconfigured {s : State} (hclear : s.fault = false) (hoff : s.cfgOk = false) (i : Instr)
    (k : Result) : unitCommand i s k = raised s .sequence (encode i).toNat := by
  rw [unitCommand, unlessFaulted_of_clear hclear, hoff]
  rfl

/-! ## The four commands on a ready block -/

section Ready
variable {s : State} (hready : s.ready)
include hready

theorem exec_mvpack_ready : exec .mvpack s = packInto s s.fb := unitCommand_ready hready
theorem exec_mvqpack_ready : exec .mvqpack s = packInto s (quant s.fb s.radius) := unitCommand_ready hready
theorem exec_mvunpack_ready : exec .mvunpack s = unpackInto s 0 := unitCommand_ready hready
theorem exec_mvunpackq_ready : exec .mvunpackq s = unpackInto s s.radius := unitCommand_ready hready

end Ready

/-! ## Packing into `PB` (R146, R148) -/

theorem packInto_of_length_ne {s : State} (hlen : s.fb.length ≠ s.nfields) (l : List Int) :
    packInto s l = .next (raise s .lengthMismatch s.fb.length) :=
  packInto_eq_next.2 (.inl ⟨hlen, rfl⟩)

theorem packInto_of_firstMisfit {s : State} {l : List Int} {n : Nat} (hlen : s.fb.length = s.nfields)
    (hn : firstMisfit l s.bitwidth = some n) : packInto s l = .next (raise s .valueRange n) :=
  packInto_eq_next.2 (.inr (.inl ⟨hlen, n, pack_eq_error_iff.2 hn, rfl⟩))

/-- `MLEN` is the length of the payload of a field of the configuration's shape. -/
theorem length_payload {s : State} {l : List Int} (hon : s.cfgOk = true) (hl : l.length = s.nfields) :
    (packFields l s.bitwidth).length = s.mlen := by
  rw [length_packFields, hl, mlen_of_active hon]

section Fits
variable {s : State} {l : List Int} (hon : s.cfgOk = true) (hlen : s.fb.length = s.nfields)
  (hl : l.length = s.fb.length) (hfits : ∀ u ∈ l, FitsIn s.bitwidth u) (hcap : s.admits .pb s.mlen)
include hon hlen hl hfits hcap

theorem packInto_of_fits : packInto s l = .next { s with pb := packFields l s.bitwidth } :=
  packInto_eq_next.2
    (.inr (.inr ⟨hlen, _, pack_of_fits hfits, (length_payload hon (hl.trans hlen)).symm ▸ hcap, rfl⟩))

/-- What MVPACK and MVQPACK leave in `PB`, bit by bit. -/
theorem packInto_payload :
    ∃ b : Bits, packInto s l = .next { s with pb := b } ∧ b.length = s.mlen ∧
      ∀ (i j : Nat) (u : Int), l[i]? = some u → j < s.bitwidth →
        b[i * s.bitwidth + j]? = some (decide (u / 2 ^ (s.bitwidth - 1 - j) % 2 = 1)) :=
  ⟨_, packInto_of_fits hon hlen hl hfits hcap, length_payload hon (hl.trans hlen),
    fun _ _ u hu hj => getElem?_packFields hu (hfits u (List.mem_of_getElem? hu)).1 hj⟩

end Fits

/-- Settles O30: the faults and the payload are those of `packInto` for `FB`. -/
theorem mvpackPacksTheField : Obligations.MvpackPacksTheField := by
  refine fun s hclear => ⟨fun hoff => unitCommand_unconfigured hclear hoff _ _, fun hon hlen => ?_, fun hon hlen => ?_⟩
  · exact (exec_mvpack_ready ⟨hclear, hon⟩).trans (packInto_of_length_ne hlen _)
  · rw [exec_mvpack_ready ⟨hclear, hon⟩]
    refine ⟨fun n v hv hmisfit hfirst => ?_, fun hfits hcap => packInto_payload hon hlen rfl hfits hcap⟩
    exact packInto_of_firstMisfit hlen (firstMisfit_eq_some_iff.2 ⟨⟨v, hv, hmisfit⟩, hfirst⟩)

theorem getElem?_quant_eq_some_iff {l : List Int} {r i : Nat} {u : Int} :
    (quant l r)[i]? = some u ↔ ∃ v, l[i]? = some v ∧ v + r = u := by
  rw [getElem?_quant, Option.map_eq_some_iff]

/-- Settles O31: those of `packInto` for the shifted field, each element of it one of `FB` and `RADIUS`. -/
theorem mvqpackPacksTheShiftedField : Obligations.MvqpackPacksTheShiftedField := by
  refine fun s hclear => ⟨fun hoff => unitCommand_unconfigured hclear hoff _ _, fun hon hlen => ?_, fun hon hlen => ?_⟩
  · exact (exec_mvqpack_ready ⟨hclear, hon⟩).trans (packInto_of_length_ne hlen _)
  · rw [exec_mvqpack_ready ⟨hclear, hon⟩]
    refine ⟨fun n v hv hmisfit hfirst => packInto_of_firstMisfit hlen (firstMisfit_eq_some_iff.2 ⟨?_, ?_⟩),
      fun hwindow hcap => ?_⟩
    · exact ⟨_, getElem?_quant_eq_some_iff.2 ⟨v, hv, rfl⟩, hmisfit⟩
    · rintro j u hj hu
      obtain ⟨v, hv, rfl⟩ := getElem?_quant_eq_some_iff.1 hu
      exact hfirst j v hj hv
    · have hfits := (quant_fits_iff s.fb s.radius s.bitwidth).2 hwindow
      obtain ⟨b, hexec, hlength, hbits⟩ := packInto_payload hon hlen (length_quant _ _) hfits hcap
      exact ⟨b, hexec, hlength, fun i j v hv => hbits i j _ (getElem?_quant_eq_some_iff.2 ⟨v, hv, rfl⟩)⟩

/-! ## Unpacking into `FB` (R147, R149) -/

section Unpack
variable {s : State} (hon : s.cfgOk = true)
include hon

theorem unpackInto_of_length_ne (hlen : s.pb.length ≠ s.mlen) (r : Nat) :
    unpackInto s r = .next (raise s .truncPayload s.pb.length) := by
  rw [mlen_of_active hon] at hlen
  exact unpackInto_eq_next.2 (.inl ⟨_, unpack_of_length_ne hlen, rfl⟩)

variable (hlen : s.pb.length = s.mlen) (hcap : s.admits .fb s.nfields) (r : Nat)
include hlen hcap

theorem unpackInto_of_length :
    unpackInto s r = .next { s with fb := dequant (unpackFields s.pb s.bitwidth s.nfields) r } := by
  rw [mlen_of_active hon] at hlen
  have hcap' : s.admits .fb (dequant (unpackFields s.pb s.bitwidth s.nfields) r).length := by
    rwa [length_dequant, length_unpackFields]
  exact unpackInto_eq_next.2 (.inr ⟨_, unpack_of_length hlen, hcap', rfl⟩)

/-- What MVUNPACK (`r = 0`) and MVUNPACKQ (`r = RADIUS`) leave in `FB`, element by element. -/
theorem unpackInto_elements :
    ∃ l : List Int, unpackInto s r = .next { s with fb := l } ∧ l.length = s.nfields ∧
      ∀ i, i < s.nfields → ∃ v : Int, l[i]? = some v ∧ -(r : Int) ≤ v ∧ v ≤ 2 ^ s.bitwidth - 1 - r ∧
        v = (val (slice s.pb (i * s.bitwidth) ((i + 1) * s.bitwidth)) : Int) - r := by
  refine ⟨_, unpackInto_of_length hon hlen hcap r, by simp, fun i hi => ⟨_, ?_, ?_, ?_, rfl⟩⟩
  · rw [getElem?_dequant, getElem?_unpackFields _ _ hi, Option.map_some]
  · omega
  · have hlt : (val (slice s.pb (i * s.bitwidth) ((i + 1) * s.bitwidth)) : Int) < 2 ^ s.bitwidth :=
      mod_cast val_slice_field_lt s.pb s.bitwidth i
    omega

end Unpack

/-- Settles O32: the faults and the elements are those of `unpackInto` with nothing taken from them. -/
theorem mvunpackReadsTheFields : Obligations.MvunpackReadsTheFields := by
  refine fun s hclear => ⟨fun hoff => unitCommand_unconfigured hclear hoff _ _, fun hon hlen => ?_,
    fun hon hlen hcap => ?_⟩
  · exact (exec_mvunpack_ready ⟨hclear, hon⟩).trans (unpackInto_of_length_ne hon hlen 0)
  · rw [exec_mvunpack_ready ⟨hclear, hon⟩]
    simpa using unpackInto_elements hon hlen hcap 0

/-- Settles O33: those of `unpackInto` with `RADIUS` taken from each element. -/
theorem mvunpackqReadsTheSignedFields : Obligations.MvunpackqReadsTheSignedFields := by
  refine fun s hclear => ⟨fun hoff => unitCommand_unconfigured hclear hoff _ _, fun hon hlen => ?_,
    fun hon hlen hcap => ?_⟩
  · exact (exec_mvunpackq_ready ⟨hclear, hon⟩).trans (unpackInto_of_length_ne hon hlen s.radius)
  · rw [exec_mvunpackq_ready ⟨hclear, hon⟩]
    exact unpackInto_elements hon hlen hcap s.radius

/-! ## The round trips (R152) -/

/-- The payload of a field unpacks to the field, less `r`. -/
theorem unpackInto_of_payload {s : State} {l : List Int} (hon : s.cfgOk = true) (hcap : s.admits .fb s.nfields)
    (hl : l.length = s.nfields) (hfits : ∀ u ∈ l, FitsIn s.bitwidth u) (hpb : s.pb = packFields l s.bitwidth) (r : Nat) :
    unpackInto s r = .next { s with fb := dequant l r } := by
  have hlen : s.pb.length = s.mlen := hpb ▸ length_payload hon hl
  have hback : unpackFields s.pb s.bitwidth s.nfields = l := by rw [hpb, ← hl, unpackFields_packFields hfits]
  rw [unpackInto_of_length hon hlen hcap, hback]

/-- The fields of a payload pack to the payload. -/
theorem packInto_of_fields {s : State} {p : Bits} {l : List Int} (hon : s.cfgOk = true) (hcap : s.admits .pb s.mlen)
    (hp : p.length = s.mlen) (hlen : s.fb.length = s.nfields) (hfields : l = unpackFields p s.bitwidth s.nfields) :
    packInto s l = .next { s with pb := p } := by
  have hl : l.length = s.fb.length := by rw [hfields, length_unpackFields, hlen]
  rw [mlen_of_active hon] at hp
  subst hfields
  rw [packInto_of_fits hon hlen hl (fun _ => fitsIn_of_mem_unpackFields) hcap, packFields_unpackFields hp]

theorem performAll_pair {e f : HostEvent} {s t u : State} (he : perform e s = .next t) (hf : perform f t = .next u) :
    performAll [e, f] s = .next u := by
  simp only [performAll, he, hf]

section RoundTrips
variable {s : State} (hready : s.ready)
include hready

section Pack
variable (hcap : s.admits .pb s.mlen)
include hcap

theorem perform_mvpack_of_fits (hlen : s.fb.length = s.nfields) (hfits : ∀ u ∈ s.fb, FitsIn s.bitwidth u) :
    perform (issue .mvpack) s = .next { s with pb := packFields s.fb s.bitwidth } := by
  rw [perform_issue, exec_mvpack_ready hready, packInto_of_fits hready.2 hlen rfl hfits hcap]

theorem perform_mvqpack_of_fits (hlen : s.fb.length = s.nfields)
    (hfits : ∀ u ∈ quant s.fb s.radius, FitsIn s.bitwidth u) :
    perform (issue .mvqpack) s = .next { s with pb := packFields (quant s.fb s.radius) s.bitwidth } := by
  rw [perform_issue, exec_mvqpack_ready hready, packInto_of_fits hready.2 hlen (length_quant _ _) hfits hcap]

theorem perform_mvpack_of_fields {p : Bits} (hp : p.length = s.mlen)
    (hfb : s.fb = unpackFields p s.bitwidth s.nfields) : perform (issue .mvpack) s = .next { s with pb := p } := by
  have hlen : s.fb.length = s.nfields := by rw [hfb, length_unpackFields]
  rw [perform_issue, exec_mvpack_ready hready, packInto_of_fields hready.2 hcap hp hlen hfb]

theorem perform_mvqpack_of_fields {p : Bits} (hp : p.length = s.mlen)
    (hfb : s.fb = dequant (unpackFields p s.bitwidth s.nfields) s.radius) :
    perform (issue .mvqpack) s = .next { s with pb := p } := by
  have hlen : s.fb.length = s.nfields := by rw [hfb, length_dequant, length_unpackFields]
  have hfields : quant s.fb s.radius = unpackFields p s.bitwidth s.nfields := by rw [hfb, quant_dequant]
  rw [perform_issue, exec_mvqpack_ready hready, packInto_of_fields hready.2 hcap hp hlen hfields]

end Pack

section Unpack
variable (hcap : s.admits .fb s.nfields)
include hcap

theorem perform_mvunpack_of_length (hlen : s.pb.length = s.mlen) :
    perform (issue .mvunpack) s = .next { s with fb := unpackFields s.pb s.bitwidth s.nfields } := by
  rw [perform_issue, exec_mvunpack_ready hready, unpackInto_of_length hready.2 hlen hcap, dequant_zero]

theorem perform_mvunpackq_of_length (hlen : s.pb.length = s.mlen) :
    perform (issue .mvunpackq) s =
      .next { s with fb := dequant (unpackFields s.pb s.bitwidth s.nfields) s.radius } := by
  rw [perform_issue, exec_mvunpackq_ready hready, unpackInto_of_length hready.2 hlen hcap]

theorem perform_mvunpack_of_payload {l : List Int} (hl : l.length = s.nfields) (hfits : ∀ u ∈ l, FitsIn s.bitwidth u)
    (hpb : s.pb = packFields l s.bitwidth) : perform (issue .mvunpack) s = .next { s with fb := l } := by
  rw [perform_issue, exec_mvunpack_ready hready, unpackInto_of_payload hready.2 hcap hl hfits hpb, dequant_zero]

theorem perform_mvunpackq_of_payload {l : List Int} (hl : l.length = s.nfields)
    (hfits : ∀ u ∈ quant l s.radius, FitsIn s.bitwidth u) (hpb : s.pb = packFields (quant l s.radius) s.bitwidth) :
    perform (issue .mvunpackq) s = .next { s with fb := l } := by
  have hlen : (quant l s.radius).length = s.nfields := (length_quant _ _).trans hl
  rw [perform_issue, exec_mvunpackq_ready hready, unpackInto_of_payload hready.2 hcap hlen hfits hpb, dequant_quant]

theorem perform_hloadf {l : List Int} (hl : l.length = s.nfields) : perform (.hloadf l) s = .next { s with fb := l } :=
  (unlessFaulted_of_clear hready.1 _).trans (loadFb_eq_next.2 ⟨hl ▸ hcap, rfl⟩)

end Unpack

variable (hpbCap : s.admits .pb s.mlen) (hfbCap : s.admits .fb s.nfields)
include hpbCap hfbCap

theorem mvpack_then_mvunpack (hlen : s.fb.length = s.nfields) (hfits : ∀ u ∈ s.fb, FitsIn s.bitwidth u) :
    performAll [issue .mvpack, issue .mvunpack] s = .next { s with pb := packFields s.fb s.bitwidth } :=
  performAll_pair (perform_mvpack_of_fits hready hpbCap hlen hfits)
    (perform_mvunpack_of_payload (s := { s with pb := packFields s.fb s.bitwidth }) hready hfbCap hlen hfits rfl)

theorem mvqpack_then_mvunpackq (hlen : s.fb.length = s.nfields)
    (hfits : ∀ u ∈ quant s.fb s.radius, FitsIn s.bitwidth u) :
    performAll [issue .mvqpack, issue .mvunpackq] s =
      .next { s with pb := packFields (quant s.fb s.radius) s.bitwidth } :=
  performAll_pair (perform_mvqpack_of_fits hready hpbCap hlen hfits)
    (perform_mvunpackq_of_payload (s := { s with pb := packFields (quant s.fb s.radius) s.bitwidth }) hready hfbCap hlen
      hfits rfl)

theorem hloadf_then_mvpack {l : List Int} (hl : l.length = s.nfields) (hfits : ∀ u ∈ l, FitsIn s.bitwidth u) :
    performAll [.hloadf l, issue .mvpack] s = .next { s with fb := l, pb := packFields l s.bitwidth } :=
  performAll_pair (perform_hloadf hready hfbCap hl)
    (perform_mvpack_of_fits hready hpbCap hl hfits)

theorem mvunpack_then_mvpack (hlen : s.pb.length = s.mlen) :
    performAll [issue .mvunpack, issue .mvpack] s = .next { s with fb := unpackFields s.pb s.bitwidth s.nfields } :=
  performAll_pair (perform_mvunpack_of_length hready hfbCap hlen)
    (perform_mvpack_of_fields (s := { s with fb := unpackFields s.pb s.bitwidth s.nfields }) hready hpbCap hlen rfl)

theorem mvunpackq_then_mvqpack (hlen : s.pb.length = s.mlen) :
    performAll [issue .mvunpackq, issue .mvqpack] s =
      .next { s with fb := dequant (unpackFields s.pb s.bitwidth s.nfields) s.radius } :=
  performAll_pair (perform_mvunpackq_of_length hready hfbCap hlen)
    (perform_mvqpack_of_fields (s := { s with fb := dequant (unpackFields s.pb s.bitwidth s.nfields) s.radius }) hready
      hpbCap hlen rfl)

end RoundTrips

/-- Settles O34: each pair of commands leaves the state as it was but for the buffer between them. -/
theorem mvCommandRoundTrips : Obligations.MvCommandRoundTrips := by
  refine fun s hready hpbCap hfbCap => ⟨fun hlen hrange => ?_, fun hlen hwindow => ?_, fun hlen => ⟨?_, ?_⟩⟩
  · have hfits : ∀ u ∈ s.fb, FitsIn s.bitwidth u := fun u hu => (hrange u hu).imp_right Int.lt_of_le_sub_one
    exact ⟨_, mvpack_then_mvunpack hready hpbCap hfbCap hlen hfits, hready.1, rfl⟩
  · have hfits := (quant_fits_iff s.fb s.radius s.bitwidth).2 hwindow
    have hl : (quant s.fb s.radius).length = s.nfields := (length_quant _ _).trans hlen
    exact ⟨_, _, mvqpack_then_mvunpackq hready hpbCap hfbCap hlen hfits, hready.1, rfl,
      hloadf_then_mvpack hready hpbCap hfbCap hl hfits, hready.1, rfl⟩
  · exact ⟨_, mvunpack_then_mvpack hready hpbCap hfbCap hlen, hready.1, rfl⟩
  · exact ⟨_, mvunpackq_then_mvqpack hready hpbCap hfbCap hlen, hready.1, rfl⟩

/-! ## The framer (R151) -/

section Blind
variable (u s : State)

@[simp] theorem withFramerOf_pb : (withFramerOf u s).pb = s.pb := rfl
@[simp] theorem withFramerOf_fb : (withFramerOf u s).fb = s.fb := rfl
@[simp] theorem withFramerOf_fault : (withFramerOf u s).fault = s.fault := rfl
@[simp] theorem withFramerOf_cfgOk : (withFramerOf u s).cfgOk = s.cfgOk := rfl
@[simp] theorem withFramerOf_bitwidth : (withFramerOf u s).bitwidth = s.bitwidth := rfl
@[simp] theorem withFramerOf_nfields : (withFramerOf u s).nfields = s.nfields := rfl

theorem unitCommand_withFramerOf {k k' : Result} (hk : k' = mapState (withFramerOf u) k) (i : Instr) :
    unitCommand i (withFramerOf u s) k' = mapState (withFramerOf u) (unitCommand i s k) := by
  rw [hk, unitCommand, unitCommand, unlessFaulted, unlessFaulted, withFramerOf_fault, withFramerOf_cfgOk,
    apply_ite (mapState _), apply_ite (mapState _)]
  rfl

theorem keepWithin_withFramerOf {k k' : Result} (hk : k' = mapState (withFramerOf u) k) (sp : Space) (n : Nat) :
    keepWithin (withFramerOf u s) sp n k' = mapState (withFramerOf u) (keepWithin s sp n k) := by
  rw [hk, keepWithin, keepWithin, apply_ite (mapState _)]
  rfl

theorem packInto_withFramerOf (l : List Int) :
    packInto (withFramerOf u s) l = mapState (withFramerOf u) (packInto s l) := by
  rw [packInto, packInto, apply_ite (mapState _), withFramerOf_fb, withFramerOf_nfields, withFramerOf_bitwidth]
  refine ite_congr rfl (fun _ => rfl) fun _ => ?_
  cases pack l s.bitwidth with
  | error i => rfl
  | ok b => exact keepWithin_withFramerOf u s (k := .next { s with pb := b }) rfl .pb b.length

theorem unpackInto_withFramerOf (r : Nat) :
    unpackInto (withFramerOf u s) r = mapState (withFramerOf u) (unpackInto s r) := by
  rw [unpackInto, unpackInto, withFramerOf_pb, withFramerOf_nfields, withFramerOf_bitwidth]
  cases unpack s.pb s.bitwidth s.nfields with
  | error n => rfl
  | ok l => exact keepWithin_withFramerOf u s (k := .next { s with fb := dequant l r }) rfl .fb (dequant l r).length

end Blind

theorem mem_mvCommands_iff {i : Instr} :
    i ∈ mvCommands ↔ i = .mvpack ∨ i = .mvunpack ∨ i = .mvqpack ∨ i = .mvunpackq := by simp [mvCommands]

theorem exec_mv_withFramerOf {i : Instr} (hi : i ∈ mvCommands) (u s : State) :
    exec i (withFramerOf u s) = mapState (withFramerOf u) (exec i s) := by
  obtain rfl | rfl | rfl | rfl := mem_mvCommands_iff.1 hi
  · exact unitCommand_withFramerOf u s (packInto_withFramerOf u s s.fb) .mvpack
  · exact unitCommand_withFramerOf u s (unpackInto_withFramerOf u s 0) .mvunpack
  · exact unitCommand_withFramerOf u s (packInto_withFramerOf u s (quant s.fb s.radius)) .mvqpack
  · exact unitCommand_withFramerOf u s (unpackInto_withFramerOf u s s.radius) .mvunpackq

theorem exec_mv_ready {i : Instr} {s : State} (hi : i ∈ mvCommands) (hready : s.ready) :
    (∃ l, exec i s = packInto s l) ∨ ∃ r, exec i s = unpackInto s r := by
  obtain rfl | rfl | rfl | rfl := mem_mvCommands_iff.1 hi
  · exact .inl ⟨_, exec_mvpack_ready hready⟩
  · exact .inr ⟨_, exec_mvunpack_ready hready⟩
  · exact .inl ⟨_, exec_mvqpack_ready hready⟩
  · exact .inr ⟨_, exec_mvunpackq_ready hready⟩

section Causes
variable {s t : State}

theorem packInto_faults {l : List Int} (h : packInto s l = .next t) :
    t.fault = s.fault ∨ t.cause = .lengthMismatch ∨ t.cause = .valueRange := by
  obtain ⟨-, rfl⟩ | ⟨-, i, -, rfl⟩ | ⟨-, b, -, -, rfl⟩ := packInto_eq_next.1 h
  · exact .inr (.inl rfl)
  · exact .inr (.inr rfl)
  · exact .inl rfl

theorem unpackInto_faults {r : Nat} (h : unpackInto s r = .next t) : t.fault = s.fault ∨ t.cause = .truncPayload := by
  obtain ⟨n, -, rfl⟩ | ⟨l, -, -, rfl⟩ := unpackInto_eq_next.1 h
  · exact .inr rfl
  · exact .inl rfl

/-- On a ready block an MV command raises only the faults of its operands. -/
theorem exec_mv_faults {i : Instr} (hi : i ∈ mvCommands) (hready : s.ready) (h : exec i s = .next t) :
    t.fault = s.fault ∨ t.cause = .lengthMismatch ∨ t.cause = .valueRange ∨ t.cause = .truncPayload := by
  obtain ⟨l, hl⟩ | ⟨r, hr⟩ := exec_mv_ready hi hready
  · exact (packInto_faults (hl.symm.trans h)).imp_right (Or.imp_right .inl)
  · exact (unpackInto_faults (hr.symm.trans h)).imp_right fun hcause => .inr (.inr hcause)

end Causes

/-- Settles O35: the operations the commands share read no element that `withFramerOf` changes, and raise faults of their
operands alone. -/
theorem mvCommandsAreBlindToTheFramer : Obligations.MvCommandsAreBlindToTheFramer := by
  refine fun i hi s => ⟨fun u => exec_mv_withFramerOf hi u s, fun hready t h hfault => ?_⟩
  obtain hsame | hcause | hcause | hcause := exec_mv_faults hi hready h
  · exact absurd (hready.1.symm.trans (hsame.symm.trans hfault)) Bool.false_ne_true
  all_goals simp [hcause]

end Sys2Proof.Machine

/-! The framer writer (R171 to R174): what each of its commands does in turn and out of turn, and its transition table
over all events. -/

namespace Sys2Proof.Machine

/-! ## The commands that open a session (R171, R191) -/

/-- Settles O36: neither command looks at a session state. -/
theorem openCommandsStartTheirSessions : Obligations.OpenCommandsStartTheirSessions :=
  fun _ hclear => ⟨fun hon => ⟨unitCommand_ready ⟨hclear, hon⟩, unitCommand_ready ⟨hclear, hon⟩⟩,
    fun hoff => ⟨unitCommand_unconfigured hclear hoff _ _, unitCommand_unconfigured hclear hoff _ _⟩⟩

/-! ## WFRAME and WMOTION (R172, R173) -/

/-- A command that asks for a session state raises SEQUENCE without a configuration and outside that state. -/
theorem unitCommand_out_of_turn {s : State} {p : Prop} [Decidable p] (hclear : s.fault = false)
    (hturn : s.cfgOk = false ∨ ¬ p) (i : Instr) (k : Result) :
    unitCommand i s (if p then k else raised s .sequence (encode i).toNat) =
      raised s .sequence (encode i).toNat := by
  cases hcfg : s.cfgOk with
  | false => exact unitCommand_unconfigured hclear hcfg i _
  | true => rw [unitCommand_ready ⟨hclear, hcfg⟩, if_neg (hturn.resolve_left (by simp [hcfg]))]

section OutOfTurn
variable {s : State} (hclear : s.fault = false)
include hclear

theorem exec_wopen_unconfigured (hoff : s.cfgOk = false) : exec .wopen s = .next (raise s .sequence 0x20) :=
  unitCommand_unconfigured hclear hoff _ _

theorem exec_wframe_out_of_turn (hturn : s.cfgOk = false ∨ s.wstate ≠ .frame) :
    exec .wframe s = .next (raise s .sequence 0x21) :=
  unitCommand_out_of_turn hclear hturn .wframe _

theorem exec_wmotion_out_of_turn (hturn : s.cfgOk = false ∨ s.wstate ≠ .motion) :
    exec .wmotion s = .next (raise s .sequence 0x22) :=
  unitCommand_out_of_turn hclear hturn .wmotion _

end OutOfTurn

theorem owesMotion_eq_true_iff {s : State} {k : Nat} : s.owesMotion k = true ↔ s.mode = 2 ∧ 0 < k := by
  rw [State.owesMotion, Bool.and_eq_true, decide_eq_true_iff, decide_eq_true_iff, modeBm]

theorem owesMotion_eq_false_iff {s : State} {k : Nat} : s.owesMotion k = false ↔ ¬ (s.mode = 2 ∧ 0 < k) := by
  rw [← owesMotion_eq_true_iff, Bool.not_eq_true]

section InTurn
variable {s : State} (hready : s.ready)
include hready

section Frame
variable (hturn : s.wstate = .frame) (hcap : s.admits .out (s.out.length + s.pb.length + s.slen))
include hturn hcap

theorem exec_wframe_owing (howes : s.mode = 2 ∧ 0 < s.wk) :
    exec .wframe s = .next { s with out := s.out ++ (s.pb ++ s.sentinel), wstate := .motion } :=
  execWframe_eq_next.2 (.inr (.inr (.inr ⟨hready, hturn, hcap, .inl ⟨owesMotion_eq_true_iff.2 howes, rfl⟩⟩)))

theorem exec_wframe_complete (hdone : ¬ (s.mode = 2 ∧ 0 < s.wk)) (hcount : s.wk + 1 ≤ Config.cntMax) :
    exec .wframe s = .next { s with out := s.out ++ (s.pb ++ s.sentinel), wstate := .frame, wk := s.wk + 1 } :=
  execWframe_eq_next.2
    (.inr (.inr (.inr ⟨hready, hturn, hcap, .inr ⟨owesMotion_eq_false_iff.2 hdone, hcount, rfl⟩⟩)))

end Frame

section Motion
variable (hturn : s.wstate = .motion)
include hturn

theorem exec_wmotion_of_length_ne (hlen : s.pb.length ≠ s.mlen) :
    exec .wmotion s = .next (raise s .lengthMismatch s.pb.length) :=
  execWmotion_eq_next.2 (.inr (.inr (.inr (.inl ⟨hready, hturn, hlen, rfl⟩))))

theorem exec_wmotion_complete (hlen : s.pb.length = s.mlen) (hcap : s.admits .out (s.out.length + s.mlen + s.slen))
    (hcount : s.wk + 1 ≤ Config.cntMax) :
    exec .wmotion s = .next { s with out := s.out ++ (s.pb ++ s.sentinel), wstate := .frame, wk := s.wk + 1 } :=
  execWmotion_eq_next.2 (.inr (.inr (.inr (.inr ⟨hready, hturn, hlen, hlen ▸ hcap, hcount, rfl⟩))))

end Motion

end InTurn

/-- Settles O37: a frame that is complete leaves the writer in `W_FRAME`, where it was. -/
theorem wframeAppendsTheFrameUnit : Obligations.WframeAppendsTheFrameUnit := by
  refine fun s hclear => ⟨exec_wframe_out_of_turn hclear, fun hon hturn hcap =>
    ⟨exec_wframe_owing ⟨hclear, hon⟩ hturn hcap, fun hdone hcount => ?_⟩⟩
  rw [exec_wframe_complete ⟨hclear, hon⟩ hturn hcap hdone hcount, ← hturn]

/-- Settles O38: the three outcomes of WMOTION. -/
theorem wmotionAppendsTheMotionUnit : Obligations.WmotionAppendsTheMotionUnit :=
  fun _ hclear => ⟨exec_wmotion_out_of_turn hclear, fun hon => exec_wmotion_of_length_ne ⟨hclear, hon⟩,
    fun hon => exec_wmotion_complete ⟨hclear, hon⟩⟩

/-! ## The transition table (R174) -/

/-- `WSTATE` and `WK` are in `t` what they are in `s`. -/
abbrev KeepsWriter (s t : State) : Prop := t.wstate = s.wstate ∧ t.wk = s.wk

/-- A fault, taken or still standing, leaves the writer alone; without one the writer moves as `row` says. -/
structure WriterMoves (row : Prop) (s t : State) : Prop where
  keeps : s.fault = true ∨ t.fault = true → KeepsWriter s t
  row : s.fault = false → t.fault = false → row

namespace WriterMoves
variable {row : Prop} {s t : State}

theorem ignored (hfault : s.fault = true) : WriterMoves row s s :=
  ⟨fun _ => ⟨rfl, rfl⟩, fun hclear => absurd (hclear.symm.trans hfault) Bool.false_ne_true⟩

theorem raised (c : Cause) (n : Nat) : WriterMoves row s (raise s c n) :=
  ⟨fun _ => ⟨rfl, rfl⟩, fun _ hclear => absurd hclear.symm Bool.false_ne_true⟩

theorem moved (hs : s.fault = false) (ht : t.fault = false) (hrow : row) : WriterMoves row s t :=
  ⟨fun hfault => by simp [hs, ht] at hfault, fun _ _ => hrow⟩

theorem of_keepsWriter (h : KeepsWriter s t) : WriterMoves (KeepsWriter s t) s t := ⟨fun _ => h, fun _ _ => h⟩

end WriterMoves

/-! ### The commands -/

/-- What a command other than SRESET does to the writer when it raises no fault: its rows of R174. -/
def writerRow (i : Instr) (s t : State) : Prop :=
  match i with
  | .cfgcommit => t.wstate = .closed ∧ t.wk = s.wk
  | .wopen => t.wstate = .frame ∧ t.wk = 0
  | .wframe =>
    if s.mode = 2 ∧ 0 < s.wk then t.wstate = .motion ∧ t.wk = s.wk else t.wstate = .frame ∧ t.wk = s.wk + 1
  | .wmotion => s.pb.length = s.mlen ∧ t.wstate = .frame ∧ t.wk = s.wk + 1
  | _ => KeepsWriter s t

/-- The commands with no row of their own keep the writer. -/
theorem writerRow_of_no_row {i : Instr} (hi : i ∉ [.sreset, .cfgcommit, .wopen, .wframe, .wmotion]) (s t : State) :
    writerRow i s t = KeepsWriter s t := by
  revert hi
  cases i <;> simp [writerRow]

section Commands
variable {s t : State}

theorem execCfgcommit_writerMoves (h : execCfgcommit s = .next t) : WriterMoves (writerRow .cfgcommit s t) s t := by
  obtain ⟨hfault, rfl⟩ | ⟨-, n, -, rfl⟩ | ⟨hclear, -, -, -, rfl⟩ := execCfgcommit_eq_next.1 h
  · exact .ignored hfault
  · exact .raised .configInvalid n
  · exact .moved hclear hclear ⟨rfl, rfl⟩

theorem execWopen_writerMoves (h : execWopen s = .next t) : WriterMoves (writerRow .wopen s t) s t := by
  obtain ⟨hfault, rfl⟩ | ⟨-, -, rfl⟩ | ⟨⟨hclear, -⟩, rfl⟩ := execWopen_eq_next.1 h
  · exact .ignored hfault
  · exact .raised .sequence _
  · exact .moved hclear hclear ⟨rfl, rfl⟩

theorem execWframe_writerMoves (h : execWframe s = .next t) : WriterMoves (writerRow .wframe s t) s t := by
  obtain ⟨hfault, rfl⟩ | ⟨-, -, rfl⟩ | ⟨-, -, rfl⟩ | ⟨⟨hclear, -⟩, -, -, ⟨howes, rfl⟩ | ⟨hdone, -, rfl⟩⟩ :=
    execWframe_eq_next.1 h
  · exact .ignored hfault
  · exact .raised .sequence _
  · exact .raised .sequence _
  · refine .moved hclear hclear ?_
    rw [writerRow, if_pos (owesMotion_eq_true_iff.1 howes)]
    exact ⟨rfl, rfl⟩
  · refine .moved hclear hclear ?_
    rw [writerRow, if_neg (owesMotion_eq_false_iff.1 hdone)]
    exact ⟨rfl, rfl⟩

theorem execWmotion_writerMoves (h : execWmotion s = .next t) : WriterMoves (writerRow .wmotion s t) s t := by
  obtain ⟨hfault, rfl⟩ | ⟨-, -, rfl⟩ | ⟨-, -, rfl⟩ | ⟨-, -, -, rfl⟩ | ⟨⟨hclear, -⟩, -, hlen, -, -, rfl⟩ :=
    execWmotion_eq_next.1 h
  · exact .ignored hfault
  · exact .raised .sequence _
  · exact .raised .sequence _
  · exact .raised .lengthMismatch _
  · exact .moved hclear hclear ⟨hlen, rfl, rfl⟩

/-- The MV unit touches no framer state (O35), the writer's among it. -/
theorem exec_mv_keepsWriter {i : Instr} (hi : i ∈ mvCommands) (h : exec i s = .next t) : KeepsWriter s t := by
  have hblind : exec i s = mapState (withFramerOf s) (exec i s) := exec_mv_withFramerOf hi s s
  rw [h, mapState, next_eq_next] at hblind
  rw [← hblind]
  exact ⟨rfl, rfl⟩

theorem execRopen_keepsWriter (h : execRopen s = .next t) : KeepsWriter s t := by
  obtain ⟨-, rfl⟩ | ⟨-, -, rfl⟩ | ⟨-, rfl⟩ := execRopen_eq_next.1 h <;> exact ⟨rfl, rfl⟩

theorem readFrameUnit_keepsWriter (h : readFrameUnit s = .next t) : KeepsWriter s t := by
  obtain ⟨-, rfl⟩ | ⟨p, -, -, ⟨-, rfl⟩ | ⟨-, -, rfl⟩⟩ := readFrameUnit_eq_next.1 h <;> exact ⟨rfl, rfl⟩

theorem execRframe_keepsWriter (h : execRframe s = .next t) : KeepsWriter s t := by
  obtain ⟨-, rfl⟩ | ⟨-, -, rfl⟩ | ⟨-, -, -, rfl⟩ | ⟨-, -, rfl⟩ | ⟨-, -, hread⟩ := execRframe_eq_next.1 h
  case inr.inr.inr.inr => exact readFrameUnit_keepsWriter hread
  all_goals exact ⟨rfl, rfl⟩

theorem readMotionUnit_keepsWriter (h : readMotionUnit s = .next t) : KeepsWriter s t := by
  obtain ⟨-, rfl⟩ | ⟨-, -, rfl⟩ | ⟨-, -, -, rfl⟩ | ⟨-, -, -, -, -, rfl⟩ := readMotionUnit_eq_next.1 h <;>
    exact ⟨rfl, rfl⟩

theorem execRmotion_keepsWriter (h : execRmotion s = .next t) : KeepsWriter s t := by
  obtain ⟨-, rfl⟩ | ⟨-, -, rfl⟩ | ⟨-, -, rfl⟩ | ⟨-, -, hread⟩ := execRmotion_eq_next.1 h
  case inr.inr.inr => exact readMotionUnit_keepsWriter hread
  all_goals exact ⟨rfl, rfl⟩

theorem exec_writerMoves {i : Instr} (hi : i ≠ .sreset) (h : exec i s = .next t) :
    WriterMoves (writerRow i s t) s t := by
  cases i with
  | cfgcommit => exact execCfgcommit_writerMoves h
  | sreset => exact absurd rfl hi
  | mvpack => exact .of_keepsWriter (exec_mv_keepsWriter (by decide) h)
  | mvunpack => exact .of_keepsWriter (exec_mv_keepsWriter (by decide) h)
  | mvqpack => exact .of_keepsWriter (exec_mv_keepsWriter (by decide) h)
  | mvunpackq => exact .of_keepsWriter (exec_mv_keepsWriter (by decide) h)
  | wopen => exact execWopen_writerMoves h
  | wframe => exact execWframe_writerMoves h
  | wmotion => exact execWmotion_writerMoves h
  | ropen => exact .of_keepsWriter (execRopen_keepsWriter h)
  | rframe => exact .of_keepsWriter (execRframe_keepsWriter h)
  | rmotion => exact .of_keepsWriter (execRmotion_keepsWriter h)

end Commands

/-! ### The other events -/

section Events
variable {s t : State}

/-- A write to a configuration register closes the writer's session and keeps `WK` (R27). -/
theorem perform_hwrite_config {n : Nat} (hlo : 4 ≤ n) (hhi : n ≤ 8) (v : Word) (s : State) :
    ∃ u, perform (.hwrite n v) s = unlessFaulted s (.next u) ∧ u.fault = s.fault ∧ u.wstate = .closed ∧
      u.wk = s.wk := by
  interval_cases n
  · exact ⟨_, perform_hwrite_mode v s, rfl, rfl, rfl⟩
  · exact ⟨_, perform_hwrite_frows v s, rfl, rfl, rfl⟩
  · exact ⟨_, perform_hwrite_fcols v s, rfl, rfl, rfl⟩
  · exact ⟨_, perform_hwrite_block v s, rfl, rfl, rfl⟩
  · exact ⟨_, perform_hwrite_radius v s, rfl, rfl, rfl⟩

theorem perform_hwrite_config_writerMoves {n : Nat} {v : Word} (hn : 4 ≤ n ∧ n ≤ 8)
    (h : perform (.hwrite n v) s = .next t) : WriterMoves (t.wstate = .closed ∧ t.wk = s.wk) s t := by
  obtain ⟨u, hwrite, hfault, hcloses⟩ := perform_hwrite_config hn.1 hn.2 v s
  obtain ⟨hfaulted, rfl⟩ | ⟨hclear, hnext⟩ := unlessFaulted_eq_next.1 (hwrite.symm.trans h)
  · exact .ignored hfaulted
  · obtain rfl := next_eq_next.1 hnext
    exact .moved hclear (hfault.trans hclear) hcloses

theorem perform_hwrite_cmd_keepsWriter {w : Word} (hw : ∀ i, HostEvent.hwrite 0 w ≠ issue i)
    (h : perform (.hwrite 0 w) s = .next t) : KeepsWriter s t := by
  obtain ⟨i, hi, -⟩ | ⟨e, -, ⟨-, rfl⟩ | ⟨-, rfl⟩⟩ := command_eq_next.1 h
  · exact absurd (congrArg (HostEvent.hwrite 0) (decode_eq_ok_iff.1 hi)) (hw i)
  · exact ⟨rfl, rfl⟩
  · exact ⟨rfl, rfl⟩

/-- A write that is no command and to no configuration register. -/
theorem perform_hwrite_keepsWriter {n : Nat} {v : Word} (hcommand : ∀ i, HostEvent.hwrite n v ≠ issue i)
    (hconfig : ¬ (4 ≤ n ∧ n ≤ 8)) (h : perform (.hwrite n v) s = .next t) : KeepsWriter s t := by
  obtain rfl | hn := n.eq_zero_or_pos
  · exact perform_hwrite_cmd_keepsWriter hcommand h
  · rw [perform_hwrite_readOnly (by omega) v s, next_eq_next] at h
    subst h
    exact ⟨rfl, rfl⟩

theorem unlessFaulted_keepsWriter {k : Result} (hk : k = .next t → KeepsWriter s t)
    (h : unlessFaulted s k = .next t) : KeepsWriter s t := by
  obtain ⟨-, rfl⟩ | ⟨-, h⟩ := unlessFaulted_eq_next.1 h
  · exact ⟨rfl, rfl⟩
  · exact hk h

theorem reply_keepsWriter {r : Reply} (h : reply s r = .next t) : KeepsWriter s t := by
  obtain rfl := next_eq_next.1 h
  exact ⟨rfl, rfl⟩

/-- The events that are neither a command, nor a write to a configuration register, nor hardware reset. -/
theorem perform_keepsWriter {e : HostEvent} (hcommand : ∀ i, e ≠ issue i)
    (hconfig : ∀ n v, e = .hwrite n v → ¬ (4 ≤ n ∧ n ≤ 8)) (hhard : e ≠ .hardReset) (h : perform e s = .next t) :
    KeepsWriter s t := by
  cases e with
  | hwrite n v => exact perform_hwrite_keepsWriter hcommand (hconfig n v rfl) h
  | hloadp b =>
    refine unlessFaulted_keepsWriter (fun hload => ?_) h
    obtain ⟨-, rfl⟩ := loadPb_eq_next.1 hload
    exact ⟨rfl, rfl⟩
  | hloadf l =>
    refine unlessFaulted_keepsWriter (fun hload => ?_) h
    obtain ⟨-, rfl⟩ := loadFb_eq_next.1 hload
    exact ⟨rfl, rfl⟩
  | hloadin src =>
    refine unlessFaulted_keepsWriter (fun hload => ?_) h
    obtain ⟨-, rfl⟩ := loadIn_eq_next.1 hload
    exact ⟨rfl, rfl⟩
  | hread n => exact reply_keepsWriter h
  | hreadp => exact reply_keepsWriter h
  | hreadf => exact reply_keepsWriter h
  | hreadout => exact reply_keepsWriter h
  | hreadin => exact reply_keepsWriter h
  | hardReset => exact absurd rfl hhard

end Events

/-! ### All events -/

theorem perform_reset {e : HostEvent} {s t : State} (he : e = .hardReset ∨ e = issue .sreset)
    (h : perform e s = .next t) : t = resetBlock s := by
  obtain rfl | rfl := he <;> exact next_eq_next.1 h

theorem fault_of_issue_raises {i : Instr} {s t : State} {c : Cause} {n : Nat} (hraises : exec i s = .next (raise s c n))
    (h : perform (issue i) s = .next t) : t.fault = true ∧ t.cause = c := by
  rw [perform_issue, hraises, next_eq_next] at h
  subst h
  exact ⟨raise_fault s c n, raise_cause s c n⟩

/-- A fault, taken or still standing, leaves the writer alone whatever the event; only the two resets do not heed one. -/
theorem perform_keepsWriter_of_fault {e : HostEvent} {s t : State} (hhard : e ≠ .hardReset)
    (hsreset : e ≠ issue .sreset) (h : perform e s = .next t) (hfault : s.fault = true ∨ t.fault = true) : KeepsWriter s t := by
  by_cases hcommand : ∃ i, e = issue i
  · obtain ⟨i, rfl⟩ := hcommand
    have hi : i ≠ .sreset := fun hi => hsreset (congrArg issue hi)
    exact (exec_writerMoves hi ((perform_issue i s).symm.trans h)).keeps hfault
  · by_cases hconfig : ∃ n v, e = .hwrite n v ∧ 4 ≤ n ∧ n ≤ 8
    · obtain ⟨n, v, rfl, hn⟩ := hconfig
      exact (perform_hwrite_config_writerMoves hn h).keeps hfault
    · exact perform_keepsWriter (not_exists.1 hcommand) (fun n v he hn => hconfig ⟨n, v, he, hn⟩) hhard h

section NoFault
variable {s t : State} (hs : s.fault = false) (ht : t.fault = false)
include hs ht

theorem writerRow_of_issue {i : Instr} (hi : i ≠ .sreset) (h : perform (issue i) s = .next t) : writerRow i s t :=
  (exec_writerMoves hi ((perform_issue i s).symm.trans h)).row hs ht

/-- The events that R174 has no row for. -/
theorem perform_keepsWriter_of_no_row {e : HostEvent} (hconfig : ∀ n v, e = .hwrite n v → ¬ (4 ≤ n ∧ n ≤ 8))
    (hrow : e ∉ [.hardReset, issue .sreset, issue .cfgcommit, issue .wopen, issue .wframe, issue .wmotion])
    (h : perform e s = .next t) : KeepsWriter s t := by
  by_cases hcommand : ∃ i, e = issue i
  · obtain ⟨i, rfl⟩ := hcommand
    have hi : i ∉ [.sreset, .cfgcommit, .wopen, .wframe, .wmotion] := fun hi =>
      hrow (List.mem_cons_of_mem _ (List.mem_map_of_mem (f := issue) hi))
    rw [← writerRow_of_no_row hi s t]
    exact writerRow_of_issue hs ht (fun hsreset => hi (hsreset ▸ List.mem_cons_self)) h
  · exact perform_keepsWriter (not_exists.1 hcommand) hconfig (fun hhard => hrow (hhard ▸ List.mem_cons_self)) h

end NoFault

/-- Settles O39: each clause is a command's row, a write to a configuration register, or one of the two lemmas on what
keeps the writer. -/
theorem writerTransitionsAreComplete : Obligations.WriterTransitionsAreComplete := by
  refine fun e s t h => ⟨?reset, fun hfault hhard hsreset => ?faulted, fun hs => ⟨?wframe, ?wmotion, ?wopen, ?fault,
    fun ht => ⟨?config, ?cfgcommit, ?opened, ?owing, ?complete, ?motion, ?others⟩⟩⟩
  case reset =>
    intro he
    rw [perform_reset he h]
    exact ⟨resetBlock_wstate s, resetBlock_wk s⟩
  case faulted => exact perform_keepsWriter_of_fault hhard hsreset h (.inl hfault)
  case wframe =>
    rintro rfl hturn
    exact fault_of_issue_raises (exec_wframe_out_of_turn hs (.inr hturn)) h
  case wmotion =>
    rintro rfl hturn
    exact fault_of_issue_raises (exec_wmotion_out_of_turn hs (.inr hturn)) h
  case wopen =>
    rintro rfl hoff
    exact fault_of_issue_raises (exec_wopen_unconfigured hs hoff) h
  case fault =>
    intro hfault
    have hno (he : e = .hardReset ∨ e = issue .sreset) : False := by
      rw [perform_reset he h, resetBlock_fault] at hfault
      exact Bool.false_ne_true hfault
    exact perform_keepsWriter_of_fault (hno ∘ .inl) (hno ∘ .inr) h (.inr hfault)
  case config =>
    rintro n v rfl hlo hhi
    exact (perform_hwrite_config_writerMoves ⟨hlo, hhi⟩ h).row hs ht
  case cfgcommit =>
    rintro rfl
    exact writerRow_of_issue hs ht (by decide) h
  case opened =>
    rintro rfl
    exact writerRow_of_issue hs ht (by decide) h
  case owing =>
    rintro rfl howes
    have hrow := writerRow_of_issue hs ht (by decide) h
    rwa [writerRow, if_pos howes] at hrow
  case complete =>
    rintro rfl hdone
    have hrow := writerRow_of_issue hs ht (by decide) h
    rwa [writerRow, if_neg fun ⟨hmode, hwk⟩ => hdone.elim (· hmode) hwk.ne'] at hrow
  case motion =>
    rintro rfl
    exact writerRow_of_issue hs ht (by decide) h
  case others => exact fun hconfig hrow => perform_keepsWriter_of_no_row hs ht hconfig hrow h

end Sys2Proof.Machine

/-! The framer reader (R191 to R194): what each of its commands does in turn and out of turn, and its transition table
over all events. -/

namespace Sys2Proof.Machine

/-! ## RFRAME (R192) -/

theorem sentinel_ne_nil (s : State) : s.sentinel ≠ [] := List.cons_ne_nil _ _

/-- The search starts within the sequence and finds nothing before its start. -/
theorem le_of_find_eq_some {pat b : Bits} {c p : Nat} (hpat : pat ≠ []) (hfind : find pat b c = some p) : c ≤ p := by
  have hc : c ≤ b.length := by
    by_contra hpast
    rw [find, if_neg hpast] at hfind
    cases hfind
  exact ((find_eq_some_iff hpat hc).1 hfind).1

theorem exec_rframe_out_of_turn {s : State} (hclear : s.fault = false)
    (hturn : s.cfgOk = false ∨ s.rstate = .closed ∨ s.rstate = .motion) :
    exec .rframe s = .next (raise s .sequence 0x31) := by
  refine execRframe_eq_next.2 ?_
  cases hcfg : s.cfgOk with
  | false => exact .inr (.inl ⟨hclear, rfl, rfl⟩)
  | true =>
    obtain hclosed | hmotion := hturn.resolve_left (by simp [hcfg])
    · exact .inr (.inr (.inl ⟨⟨hclear, hcfg⟩, by simp [hclosed], by simp [hclosed], rfl⟩))
    · exact .inr (.inr (.inl ⟨⟨hclear, hcfg⟩, by simp [hmotion], by simp [hmotion], rfl⟩))

section FrameUnit
variable {s : State} (hready : s.ready)
include hready

theorem exec_rframe_done (hturn : s.rstate = .done) : exec .rframe s = .next s :=
  execRframe_eq_next.2 (.inr (.inr (.inr (.inl ⟨hready, hturn, rfl⟩))))

variable (hturn : s.rstate = .frame)
include hturn

theorem exec_rframe_reads : exec .rframe s = readFrameUnit s := by
  refine (unitCommand_ready hready).trans ?_
  rw [hturn]

theorem exec_rframe_end (hfind : find s.sentinel s.inp s.cur = none) : exec .rframe s = .next (endOfStream s) :=
  (exec_rframe_reads hready hturn).trans (readFrameUnit_eq_next.2 (.inl ⟨hfind, rfl⟩))

section Found
variable {p : Nat} (hfind : find s.sentinel s.inp s.cur = some p) (hcap : s.admits .pb (p - s.cur))
include hfind hcap

theorem exec_rframe_owing (howes : s.mode = 2 ∧ 0 < s.rk) :
    exec .rframe s = .next { s with pb := slice s.inp s.cur p, cur := p + s.slen, rstate := .motion } := by
  have hunit := readFrameUnit_eq_next.2 (.inr ⟨p, hfind, hcap, .inl ⟨owesMotion_eq_true_iff.2 howes, rfl⟩⟩)
  rwa [memRead, Nat.add_sub_cancel' (le_of_find_eq_some (sentinel_ne_nil s) hfind),
    ← exec_rframe_reads hready hturn] at hunit

theorem exec_rframe_complete (hdone : ¬ (s.mode = 2 ∧ 0 < s.rk)) (hcount : s.rk + 1 ≤ Config.cntMax) :
    exec .rframe s =
      .next { s with pb := slice s.inp s.cur p, cur := p + s.slen, rstate := .frame, rk := s.rk + 1 } := by
  have hunit :=
    readFrameUnit_eq_next.2 (.inr ⟨p, hfind, hcap, .inr ⟨owesMotion_eq_false_iff.2 hdone, hcount, rfl⟩⟩)
  rwa [memRead, Nat.add_sub_cancel' (le_of_find_eq_some (sentinel_ne_nil s) hfind),
    ← exec_rframe_reads hready hturn] at hunit

end Found

end FrameUnit

/-- Settles O42: a frame that is complete leaves the reader in `R_FRAME`, where it was. -/
theorem rframeReadsTheNextUnitOrEnds : Obligations.RframeReadsTheNextUnitOrEnds := by
  refine fun s hclear => ⟨exec_rframe_out_of_turn hclear, fun hon hturn p hfind hcap =>
    ⟨exec_rframe_owing ⟨hclear, hon⟩ hturn hfind hcap, fun hdone hcount => ?_⟩,
    fun hon => exec_rframe_end ⟨hclear, hon⟩, fun hon => exec_rframe_done ⟨hclear, hon⟩⟩
  rw [exec_rframe_complete ⟨hclear, hon⟩ hturn hfind hcap hdone hcount, ← hturn]

/-! ## RMOTION (R193) -/

theorem exec_rmotion_out_of_turn {s : State} (hclear : s.fault = false) (hturn : s.cfgOk = false ∨ s.rstate ≠ .motion) :
    exec .rmotion s = .next (raise s .sequence 0x32) :=
  unitCommand_out_of_turn hclear hturn .rmotion _

theorem exec_rmotion_reads {s : State} (hready : s.ready) (hturn : s.rstate = .motion) :
    exec .rmotion s = readMotionUnit s :=
  (unitCommand_ready hready).trans (if_pos hturn)

/-- Settles O43: in turn RMOTION is `readMotionUnit`, whose four outcomes are the four clauses. -/
theorem rmotionTakesTheFieldByLength : Obligations.RmotionTakesTheFieldByLength := by
  refine fun s hclear => ⟨exec_rmotion_out_of_turn hclear, fun hon hturn _ => ?_⟩
  rw [exec_rmotion_reads ⟨hclear, hon⟩ hturn]
  refine ⟨fun hshort => ?field, fun hfield hshort => ?short, fun hwhole hother => ?mismatch,
    fun hwhole hsentinel hcap hcount => ?taken⟩
  case field => exact readMotionUnit_eq_next.2 (.inl ⟨hshort, rfl⟩)
  case short => exact readMotionUnit_eq_next.2 (.inr (.inl ⟨hfield, hshort, rfl⟩))
  case mismatch => exact readMotionUnit_eq_next.2 (.inr (.inr (.inl ⟨by omega, by omega, hother, rfl⟩)))
  case taken =>
    exact readMotionUnit_eq_next.2 (.inr (.inr (.inr ⟨by omega, by omega, hsentinel, hcap, hcount, rfl⟩)))

/-- With the cursor within the input RMOTION faults exactly when what it needs does not stand there. -/
theorem readMotionUnit_fault_iff {s t : State} (hclear : s.fault = false) (hcur : s.cur ≤ s.inp.length)
    (h : readMotionUnit s = .next t) :
    t.fault = true ↔ s.inp.length < s.cur + s.mlen + s.slen ∨
      slice s.inp (s.cur + s.mlen) (s.cur + s.mlen + s.slen) ≠ s.sentinel := by
  obtain ⟨hshort, rfl⟩ | ⟨-, hshort, rfl⟩ | ⟨-, -, hother, rfl⟩ | ⟨hfield, hwhole, hsentinel, -, -, rfl⟩ :=
    readMotionUnit_eq_next.1 h
  · exact iff_of_true (raise_fault ..) (.inl (by omega))
  · exact iff_of_true (raise_fault ..) (.inl (by omega))
  · exact iff_of_true (raise_fault ..) (.inr hother)
  · exact iff_of_false (by simp [hclear]) (not_or.2 ⟨by omega, not_not.2 hsentinel⟩)

/-! ## The transition table (R194) -/

/-- `RSTATE` is `r` and `RK` is `k`. -/
abbrev ReaderAt (r : RState) (k : Nat) (t : State) : Prop := t.rstate = r ∧ t.rk = k

/-- `RSTATE` and `RK` are in `t` what they are in `s`. -/
abbrev KeepsReader (s t : State) : Prop := ReaderAt s.rstate s.rk t

/-- What an event that heeds `FAULT` can end in: it is ignored, it raises a fault and does nothing else, or it runs
without a fault and does what `row` says. -/
inductive GuardedStep (row : State → Prop) (s : State) : State → Prop where
  | ignored (hfault : s.fault = true) : GuardedStep row s s
  | raised (c : Cause) (n : Nat) : GuardedStep row s (raise s c n)
  | ran {t : State} (hs : s.fault = false) (ht : t.fault = false) (hrow : row t) : GuardedStep row s t

namespace GuardedStep
variable {row : State → Prop} {s t : State}

theorem row_of_clear (h : GuardedStep row s t) (hs : s.fault = false) (ht : t.fault = false) : row t := by
  cases h with
  | ignored hfault => exact absurd (hs.symm.trans hfault) Bool.false_ne_true
  | raised c n => exact absurd ht.symm Bool.false_ne_true
  | ran _ _ hrow => exact hrow

theorem keepsReader_of_fault (h : GuardedStep row s t) (hfault : s.fault = true ∨ t.fault = true) :
    KeepsReader s t := by
  cases h with
  | ignored => exact ⟨rfl, rfl⟩
  | raised => exact ⟨rfl, rfl⟩
  | ran hs ht => simp [hs, ht] at hfault

theorem of_unlessFaulted {k : Result} (hk : s.fault = false → k = .next t → GuardedStep row s t)
    (h : unlessFaulted s k = .next t) : GuardedStep row s t := by
  obtain ⟨hfault, rfl⟩ | ⟨hclear, hnext⟩ := unlessFaulted_eq_next.1 h
  · exact .ignored hfault
  · exact hk hclear hnext

theorem of_unitCommand {i : Instr} {k : Result} (hk : s.ready → k = .next t → GuardedStep row s t)
    (h : unitCommand i s k = .next t) : GuardedStep row s t := by
  obtain ⟨hfault, rfl⟩ | ⟨-, -, rfl⟩ | ⟨hready, hnext⟩ := unitCommand_eq_next.1 h
  · exact .ignored hfault
  · exact .raised .sequence _
  · exact hk hready hnext

end GuardedStep

/-! ### The commands -/

/-- The rows of RFRAME (R194); in the states that are not listed it raises SEQUENCE. -/
def rframeRow (s t : State) : Prop :=
  match s.rstate, find s.sentinel s.inp s.cur with
  | .frame, some _ => if s.mode = 2 ∧ 0 < s.rk then ReaderAt .motion s.rk t else ReaderAt .frame (s.rk + 1) t
  | .frame, none => ReaderAt .done s.rk t
  | _, _ => KeepsReader s t

/-- What a command other than SRESET does to the reader when it raises no fault: its rows of R194. -/
def readerRow (i : Instr) (s t : State) : Prop :=
  match i with
  | .cfgcommit => ReaderAt .closed s.rk t
  | .ropen => ReaderAt .frame 0 t
  | .rframe => rframeRow s t
  | .rmotion => ReaderAt .frame (s.rk + 1) t
  | _ => KeepsReader s t

/-- The commands with no row of their own keep the reader. -/
theorem readerRow_of_no_row {i : Instr} (hi : i ∉ [.sreset, .cfgcommit, .ropen, .rframe, .rmotion]) (s t : State) :
    readerRow i s t ↔ KeepsReader s t := by
  revert hi
  cases i <;> simp [readerRow]

section RframeRow
variable {s t : State}

theorem rframeRow_of_done (hturn : s.rstate = .done) : rframeRow s t ↔ KeepsReader s t := by
  simp only [rframeRow, hturn]

theorem rframeRow_of_end (hturn : s.rstate = .frame) (hfind : find s.sentinel s.inp s.cur = none) :
    rframeRow s t ↔ ReaderAt .done s.rk t := by
  simp only [rframeRow, hturn, hfind]

theorem rframeRow_of_owing {p : Nat} (hturn : s.rstate = .frame) (hfind : find s.sentinel s.inp s.cur = some p)
    (howes : s.mode = 2 ∧ 0 < s.rk) : rframeRow s t ↔ ReaderAt .motion s.rk t := by
  simp only [rframeRow, hturn, hfind, if_pos howes]

theorem rframeRow_of_complete {p : Nat} (hturn : s.rstate = .frame) (hfind : find s.sentinel s.inp s.cur = some p)
    (hdone : ¬ (s.mode = 2 ∧ 0 < s.rk)) : rframeRow s t ↔ ReaderAt .frame (s.rk + 1) t := by
  simp only [rframeRow, hturn, hfind, if_neg hdone]

end RframeRow

section Commands
variable {s t : State}

theorem execCfgcommit_guardedStep (h : execCfgcommit s = .next t) : GuardedStep (ReaderAt .closed s.rk) s t := by
  obtain ⟨hfault, rfl⟩ | ⟨-, n, -, rfl⟩ | ⟨hclear, -, -, -, rfl⟩ := execCfgcommit_eq_next.1 h
  · exact .ignored hfault
  · exact .raised .configInvalid n
  · exact .ran hclear hclear ⟨rfl, rfl⟩

theorem packInto_guardedStep {l : List Int} (hready : s.ready) (h : packInto s l = .next t) :
    GuardedStep (KeepsReader s) s t := by
  obtain ⟨-, rfl⟩ | ⟨-, i, -, rfl⟩ | ⟨-, b, -, -, rfl⟩ := packInto_eq_next.1 h
  · exact .raised .lengthMismatch _
  · exact .raised .valueRange i
  · exact .ran hready.1 hready.1 ⟨rfl, rfl⟩

theorem unpackInto_guardedStep {r : Nat} (hready : s.ready) (h : unpackInto s r = .next t) :
    GuardedStep (KeepsReader s) s t := by
  obtain ⟨n, -, rfl⟩ | ⟨l, -, -, rfl⟩ := unpackInto_eq_next.1 h
  · exact .raised .truncPayload n
  · exact .ran hready.1 hready.1 ⟨rfl, rfl⟩

theorem execWopen_guardedStep (h : execWopen s = .next t) : GuardedStep (KeepsReader s) s t := by
  obtain ⟨hfault, rfl⟩ | ⟨-, -, rfl⟩ | ⟨⟨hclear, -⟩, rfl⟩ := execWopen_eq_next.1 h
  · exact .ignored hfault
  · exact .raised .sequence _
  · exact .ran hclear hclear ⟨rfl, rfl⟩

theorem execWframe_guardedStep (h : execWframe s = .next t) : GuardedStep (KeepsReader s) s t := by
  obtain ⟨hfault, rfl⟩ | ⟨-, -, rfl⟩ | ⟨-, -, rfl⟩ | ⟨⟨hclear, -⟩, -, -, ⟨-, rfl⟩ | ⟨-, -, rfl⟩⟩ :=
    execWframe_eq_next.1 h
  · exact .ignored hfault
  · exact .raised .sequence _
  · exact .raised .sequence _
  · exact .ran hclear hclear ⟨rfl, rfl⟩
  · exact .ran hclear hclear ⟨rfl, rfl⟩

theorem execWmotion_guardedStep (h : execWmotion s = .next t) : GuardedStep (KeepsReader s) s t := by
  obtain ⟨hfault, rfl⟩ | ⟨-, -, rfl⟩ | ⟨-, -, rfl⟩ | ⟨-, -, -, rfl⟩ | ⟨⟨hclear, -⟩, -, -, -, -, rfl⟩ :=
    execWmotion_eq_next.1 h
  · exact .ignored hfault
  · exact .raised .sequence _
  · exact .raised .sequence _
  · exact .raised .lengthMismatch _
  · exact .ran hclear hclear ⟨rfl, rfl⟩

theorem execRopen_guardedStep (h : execRopen s = .next t) : GuardedStep (ReaderAt .frame 0) s t := by
  obtain ⟨hfault, rfl⟩ | ⟨-, -, rfl⟩ | ⟨⟨hclear, -⟩, rfl⟩ := execRopen_eq_next.1 h
  · exact .ignored hfault
  · exact .raised .sequence _
  · exact .ran hclear hclear ⟨rfl, rfl⟩

theorem readFrameUnit_guardedStep (hclear : s.fault = false) (hturn : s.rstate = .frame)
    (h : readFrameUnit s = .next t) : GuardedStep (rframeRow s) s t := by
  obtain ⟨hfind, rfl⟩ | ⟨p, hfind, -, ⟨howes, rfl⟩ | ⟨hdone, -, rfl⟩⟩ := readFrameUnit_eq_next.1 h
  · exact .ran hclear hclear ((rframeRow_of_end hturn hfind).2 ⟨rfl, rfl⟩)
  · exact .ran hclear hclear ((rframeRow_of_owing hturn hfind (owesMotion_eq_true_iff.1 howes)).2 ⟨rfl, rfl⟩)
  · exact .ran hclear hclear ((rframeRow_of_complete hturn hfind (owesMotion_eq_false_iff.1 hdone)).2 ⟨rfl, rfl⟩)

theorem execRframe_guardedStep (h : execRframe s = .next t) : GuardedStep (rframeRow s) s t := by
  obtain ⟨hfault, rfl⟩ | ⟨-, -, rfl⟩ | ⟨-, -, -, rfl⟩ | ⟨⟨hclear, -⟩, hturn, rfl⟩ | ⟨⟨hclear, -⟩, hturn, hread⟩ :=
    execRframe_eq_next.1 h
  · exact .ignored hfault
  · exact .raised .sequence _
  · exact .raised .sequence _
  · exact .ran hclear hclear ((rframeRow_of_done hturn).2 ⟨rfl, rfl⟩)
  · exact readFrameUnit_guardedStep hclear hturn hread

theorem readMotionUnit_guardedStep (hclear : s.fault = false) (h : readMotionUnit s = .next t) :
    GuardedStep (ReaderAt .frame (s.rk + 1)) s t := by
  obtain ⟨-, rfl⟩ | ⟨-, -, rfl⟩ | ⟨-, -, -, rfl⟩ | ⟨-, -, -, -, -, rfl⟩ := readMotionUnit_eq_next.1 h
  · exact .raised .truncMotion _
  · exact .raised .truncSentinel _
  · exact .raised .sentinelMismatch _
  · exact .ran hclear hclear ⟨rfl, rfl⟩

theorem execRmotion_guardedStep (h : execRmotion s = .next t) : GuardedStep (ReaderAt .frame (s.rk + 1)) s t := by
  obtain ⟨hfault, rfl⟩ | ⟨-, -, rfl⟩ | ⟨-, -, rfl⟩ | ⟨⟨hclear, -⟩, -, hread⟩ := execRmotion_eq_next.1 h
  · exact .ignored hfault
  · exact .raised .sequence _
  · exact .raised .sequence _
  · exact readMotionUnit_guardedStep hclear hread

theorem exec_guardedStep {i : Instr} (hi : i ≠ .sreset) (h : exec i s = .next t) : GuardedStep (readerRow i s) s t := by
  cases i with
  | cfgcommit => exact execCfgcommit_guardedStep h
  | sreset => exact absurd rfl hi
  | mvpack => exact .of_unitCommand packInto_guardedStep h
  | mvunpack => exact .of_unitCommand unpackInto_guardedStep h
  | mvqpack => exact .of_unitCommand packInto_guardedStep h
  | mvunpackq => exact .of_unitCommand unpackInto_guardedStep h
  | wopen => exact execWopen_guardedStep h
  | wframe => exact execWframe_guardedStep h
  | wmotion => exact execWmotion_guardedStep h
  | ropen => exact execRopen_guardedStep h
  | rframe => exact execRframe_guardedStep h
  | rmotion => exact execRmotion_guardedStep h

end Commands

/-! ### The other events -/

section Events
variable {s t : State}

/-- A write to a configuration register is `configWritten` with values for the five registers (R27). -/
theorem perform_hwrite_config_eq {n : Nat} (hn : 4 ≤ n ∧ n ≤ 8) (v : Word) (s : State) :
    ∃ m fr fc b r, perform (.hwrite n v) s =
      unlessFaulted s (.next { configWritten s with mode := m, frows := fr, fcols := fc, block := b, radius := r }) := by
  obtain ⟨hlo, hhi⟩ := hn
  interval_cases n
  · exact ⟨_, _, _, _, _, perform_hwrite_mode v s⟩
  · exact ⟨_, _, _, _, _, perform_hwrite_frows v s⟩
  · exact ⟨_, _, _, _, _, perform_hwrite_fcols v s⟩
  · exact ⟨_, _, _, _, _, perform_hwrite_block v s⟩
  · exact ⟨_, _, _, _, _, perform_hwrite_radius v s⟩

theorem perform_hwrite_config_guardedStep {n : Nat} {v : Word} (hn : 4 ≤ n ∧ n ≤ 8)
    (h : perform (.hwrite n v) s = .next t) : GuardedStep (ReaderAt .closed s.rk) s t := by
  obtain ⟨m, fr, fc, b, r, hwrite⟩ := perform_hwrite_config_eq hn v s
  refine .of_unlessFaulted (fun hclear hnext => ?_) (hwrite.symm.trans h)
  obtain rfl := next_eq_next.1 hnext
  exact .ran hclear hclear ⟨rfl, rfl⟩

theorem perform_hloadin_guardedStep {src : InSource} (h : perform (.hloadin src) s = .next t) :
    GuardedStep (ReaderAt .closed 0) s t := by
  refine .of_unlessFaulted (fun hclear hload => ?_) h
  obtain ⟨-, rfl⟩ := loadIn_eq_next.1 hload
  exact .ran hclear hclear ⟨rfl, rfl⟩

/-- A write that is no command and to no configuration register does nothing, unless its word is illegal (R43, R93). -/
theorem perform_hwrite_other {n : Nat} {v : Word} (hcommand : ∀ i, HostEvent.hwrite n v ≠ issue i)
    (hconfig : ¬ (4 ≤ n ∧ n ≤ 8)) (h : perform (.hwrite n v) s = .next t) :
    t = s ∨ t = raise s .illegalCommand v.toNat := by
  obtain rfl | hn := n.eq_zero_or_pos
  · obtain ⟨i, hi, -⟩ | ⟨e, -, ⟨-, hsame⟩ | ⟨-, hraise⟩⟩ := command_eq_next.1 h
    · exact absurd (congrArg (HostEvent.hwrite 0) (decode_eq_ok_iff.1 hi)) (hcommand i)
    · exact .inl hsame
    · exact .inr hraise
  · exact .inl (next_eq_next.1 ((perform_hwrite_readOnly (by omega) v s).symm.trans h))

theorem perform_hloadp_keepsReader {b : Bits} (h : perform (.hloadp b) s = .next t) : KeepsReader s t := by
  obtain ⟨-, rfl⟩ | ⟨-, hload⟩ := unlessFaulted_eq_next.1 h
  · exact ⟨rfl, rfl⟩
  · obtain ⟨-, rfl⟩ := loadPb_eq_next.1 hload
    exact ⟨rfl, rfl⟩

theorem perform_hloadf_keepsReader {l : List Int} (h : perform (.hloadf l) s = .next t) : KeepsReader s t := by
  obtain ⟨-, rfl⟩ | ⟨-, hload⟩ := unlessFaulted_eq_next.1 h
  · exact ⟨rfl, rfl⟩
  · obtain ⟨-, rfl⟩ := loadFb_eq_next.1 hload
    exact ⟨rfl, rfl⟩

theorem reply_keepsReader {r : Reply} (h : reply s r = .next t) : KeepsReader s t := by
  obtain rfl := next_eq_next.1 h
  exact ⟨rfl, rfl⟩

end Events

/-! ### All events -/

/-- The events that close the reader's session and heed a fault: `HLOADIN` and a write to a configuration register. -/
def ClosesReader (e : HostEvent) : Prop := (∃ n v, e = .hwrite n v ∧ 4 ≤ n ∧ n ≤ 8) ∨ ∃ src, e = .hloadin src

/-- What an event can do to the reader: reset it, run a command's row, close its session, or leave it alone. -/
theorem perform_reader_cases {e : HostEvent} {s t : State} (h : perform e s = .next t) :
    (e = .hardReset ∨ e = issue .sreset) ∨
    (∃ i, i ≠ .sreset ∧ e = issue i ∧ GuardedStep (readerRow i s) s t) ∨
    (ClosesReader e ∧ ∃ k, GuardedStep (ReaderAt .closed k) s t) ∨ KeepsReader s t := by
  cases e with
  | hwrite n v =>
    by_cases hcommand : ∃ i, HostEvent.hwrite n v = issue i
    · obtain ⟨i, hissue⟩ := hcommand
      rw [hissue] at h ⊢
      by_cases hi : i = .sreset
      · exact .inl (.inr (congrArg issue hi))
      · exact .inr (.inl ⟨i, hi, rfl, exec_guardedStep hi ((perform_issue i s).symm.trans h)⟩)
    · by_cases hn : 4 ≤ n ∧ n ≤ 8
      · exact .inr (.inr (.inl ⟨.inl ⟨n, v, rfl, hn⟩, s.rk, perform_hwrite_config_guardedStep hn h⟩))
      · obtain rfl | rfl := perform_hwrite_other (not_exists.1 hcommand) hn h <;>
          exact .inr (.inr (.inr ⟨rfl, rfl⟩))
  | hloadin src => exact .inr (.inr (.inl ⟨.inr ⟨src, rfl⟩, 0, perform_hloadin_guardedStep h⟩))
  | hloadp b => exact .inr (.inr (.inr (perform_hloadp_keepsReader h)))
  | hloadf l => exact .inr (.inr (.inr (perform_hloadf_keepsReader h)))
  | hread n => exact .inr (.inr (.inr (reply_keepsReader h)))
  | hreadp => exact .inr (.inr (.inr (reply_keepsReader h)))
  | hreadf => exact .inr (.inr (.inr (reply_keepsReader h)))
  | hreadout => exact .inr (.inr (.inr (reply_keepsReader h)))
  | hreadin => exact .inr (.inr (.inr (reply_keepsReader h)))
  | hardReset => exact .inl (.inl rfl)

/-- A fault, taken or still standing, leaves the reader alone whatever the event; only the two resets do not heed one. -/
theorem perform_keepsReader_of_fault {e : HostEvent} {s t : State} (hreset : ¬ (e = .hardReset ∨ e = issue .sreset))
    (h : perform e s = .next t) (hfault : s.fault = true ∨ t.fault = true) : KeepsReader s t := by
  obtain hres | ⟨i, -, -, hstep⟩ | ⟨-, k, hstep⟩ | hkeeps := perform_reader_cases h
  · exact absurd hres hreset
  · exact hstep.keepsReader_of_fault hfault
  · exact hstep.keepsReader_of_fault hfault
  · exact hkeeps

section NoFault
variable {s t : State} (hs : s.fault = false) (ht : t.fault = false)
include hs ht

theorem readerRow_of_issue {i : Instr} (hi : i ≠ .sreset) (h : perform (issue i) s = .next t) : readerRow i s t :=
  (exec_guardedStep hi ((perform_issue i s).symm.trans h)).row_of_clear hs ht

/-- The events that R194 has no row for. -/
theorem perform_keepsReader_of_no_row {e : HostEvent} (hcloses : ¬ ClosesReader e)
    (hrow : e ∉ [.hardReset, issue .sreset, issue .cfgcommit, issue .ropen, issue .rframe, issue .rmotion])
    (h : perform e s = .next t) : KeepsReader s t := by
  obtain (rfl | rfl) | ⟨i, -, rfl, hstep⟩ | ⟨hclosing, -⟩ | hkeeps := perform_reader_cases h
  · exact absurd List.mem_cons_self hrow
  · exact absurd (List.mem_cons_of_mem _ List.mem_cons_self) hrow
  · have hi : i ∉ [.sreset, .cfgcommit, .ropen, .rframe, .rmotion] := fun hi =>
      hrow (List.mem_cons_of_mem _ (List.mem_map_of_mem (f := issue) hi))
    rw [← readerRow_of_no_row hi s t]
    exact hstep.row_of_clear hs ht
  · exact absurd hclosing hcloses
  · exact hkeeps

end NoFault

/-- Settles O44: each clause is a command's row, an event that closes the session, or one of the two lemmas on what keeps
the reader; RMOTION's fault is that of `readMotionUnit`. -/
theorem readerTransitionsAreComplete : Obligations.ReaderTransitionsAreComplete := by
  refine fun e s t h => ⟨?reset, fun hfault hhard hsreset => ?faulted, fun hs => ⟨?rframe, ?rmotion, ?ropen,
    ?motionFault, ?fault, fun ht => ⟨?loaded, ?config, ?cfgcommit, ?opened, ?unit, ?ended, ?done, ?motion, ?others⟩⟩⟩
  case reset =>
    intro he
    rw [perform_reset he h]
    exact ⟨resetBlock_rstate s, resetBlock_rk s⟩
  case faulted => exact perform_keepsReader_of_fault (not_or.2 ⟨hhard, hsreset⟩) h (.inl hfault)
  case rframe =>
    rintro rfl hturn
    exact fault_of_issue_raises (exec_rframe_out_of_turn hs (.inr hturn)) h
  case rmotion =>
    rintro rfl hturn
    exact fault_of_issue_raises (exec_rmotion_out_of_turn hs (.inr hturn)) h
  case ropen =>
    rintro rfl hoff
    exact fault_of_issue_raises (i := .ropen) (unitCommand_unconfigured hs hoff _ _) h
  case motionFault =>
    rintro rfl hturn hon hcur
    rw [perform_issue, exec_rmotion_reads ⟨hs, hon⟩ hturn] at h
    exact readMotionUnit_fault_iff hs hcur h
  case fault =>
    intro hfault
    have hreset : ¬ (e = .hardReset ∨ e = issue .sreset) := fun he => by
      rw [perform_reset he h, resetBlock_fault] at hfault
      exact Bool.false_ne_true hfault
    exact perform_keepsReader_of_fault hreset h (.inr hfault)
  case loaded =>
    rintro src rfl
    exact (perform_hloadin_guardedStep h).row_of_clear hs ht
  case config =>
    rintro n v rfl hlo hhi
    exact (perform_hwrite_config_guardedStep ⟨hlo, hhi⟩ h).row_of_clear hs ht
  case cfgcommit =>
    rintro rfl
    exact readerRow_of_issue hs ht (by decide) h
  case opened =>
    rintro rfl
    exact readerRow_of_issue hs ht (by decide) h
  case unit =>
    rintro rfl hturn hfound
    obtain ⟨p, hfind⟩ := Option.ne_none_iff_exists'.1 hfound
    have hrow : rframeRow s t := readerRow_of_issue hs ht (by decide) h
    exact ⟨fun howes => (rframeRow_of_owing hturn hfind howes).1 hrow, fun hdone =>
      (rframeRow_of_complete hturn hfind fun ⟨hmode, hrk⟩ => hdone.elim (· hmode) hrk.ne').1 hrow⟩
  case ended =>
    rintro rfl hturn hfind
    exact (rframeRow_of_end hturn hfind).1 (readerRow_of_issue hs ht (by decide) h)
  case done =>
    rintro rfl hturn
    have hrow : rframeRow s t := readerRow_of_issue hs ht (by decide) h
    rwa [rframeRow_of_done hturn, KeepsReader, hturn] at hrow
  case motion =>
    rintro rfl
    exact readerRow_of_issue hs ht (by decide) h
  case others =>
    intro hconfig hload hrow
    have hcloses : ¬ ClosesReader e := by
      rintro (⟨n, v, he, hn⟩ | ⟨src, he⟩)
      · exact hconfig n v he hn
      · exact hload src he
    exact perform_keepsReader_of_no_row hs ht hcloses hrow h

end Sys2Proof.Machine

/-! Faults (R240 to R247): what the faulted condition ignores, and that a fault writes the fault record alone. -/

namespace Sys2Proof.Machine

/-! ## The faulted condition (R246) -/

section Faulted
variable {s : State} (hfault : s.fault = true)
include hfault

theorem unitCommand_of_faulted (i : Instr) (k : Result) : unitCommand i s k = .next s :=
  unlessFaulted_of_faulted hfault _

theorem exec_of_faulted {i : Instr} (hi : i ≠ .sreset) : exec i s = .next s := by
  cases i with
  | cfgcommit => exact unlessFaulted_of_faulted hfault _
  | sreset => exact absurd rfl hi
  | _ => exact unitCommand_of_faulted hfault _ _

theorem perform_hwrite_cmd_of_faulted {w : Word} (hw : w ≠ encode .sreset) : perform (.hwrite 0 w) s = .next s := by
  cases hdecode : decode w with
  | error e => exact command_eq_next.2 (.inr ⟨e, hdecode, .inl ⟨hfault, rfl⟩⟩)
  | ok i =>
    have hi : i ≠ .sreset := by
      rintro rfl
      exact hw (decode_eq_ok_iff.1 hdecode)
    exact command_eq_next.2 (.inl ⟨i, hdecode, exec_of_faulted hfault hi⟩)

theorem perform_hwrite_of_faulted {n : Nat} {v : Word} (hreset : (n, v) ≠ (0, encode .sreset)) :
    perform (.hwrite n v) s = .next s := by
  obtain rfl | hpos := n.eq_zero_or_pos
  · exact perform_hwrite_cmd_of_faulted hfault fun hv => hreset (congrArg (Prod.mk 0) hv)
  · by_cases hconfig : 4 ≤ n ∧ n ≤ 8
    · exact (configurationWriteClosesSessions s v).2 hfault n hconfig.1 hconfig.2
    · exact perform_hwrite_readOnly (by omega) v s

end Faulted

/-- Settles O11: writes go through `perform_hwrite_of_faulted`, loads are `unlessFaulted`, and reads and SRESET do not look
at `FAULT`. -/
theorem faultedBlockIgnoresAllButReset : Obligations.FaultedBlockIgnoresAllButReset :=
  fun s hfault => ⟨fun _ _ hreset => perform_hwrite_of_faulted hfault hreset,
    fun _ => unlessFaulted_of_faulted hfault _, fun _ => unlessFaulted_of_faulted hfault _,
    fun _ => unlessFaulted_of_faulted hfault _, fun n => perform_hread n s, rfl, rfl, rfl, rfl,
    perform_issue .sreset s⟩

/-! ## Precise faults (R245) -/

/-- What an event can end in when no fault stands: no fault, or a fault that `raise` writes, with a cause of the table
of R241. -/
inductive ClearOrRaised (s : State) : State → Prop where
  | clear {t : State} (ht : t.fault = false) : ClearOrRaised s t
  | raised {c : Cause} (hc : c ≠ .noFault) (n : Nat) : ClearOrRaised s (raise s c n)

theorem ClearOrRaised.of_fault {s t : State} (h : ClearOrRaised s t) (hfault : t.fault = true) :
    t.cause ≠ .noFault ∧ t = raise s t.cause t.info := by
  cases h with
  | clear hclear => exact absurd (hclear.symm.trans hfault) Bool.false_ne_true
  | raised hc n => exact ⟨hc, rfl⟩

section Precise
variable {s t : State}

theorem packInto_clearOrRaised {l : List Int} (hready : s.ready) (h : packInto s l = .next t) : ClearOrRaised s t := by
  obtain ⟨-, rfl⟩ | ⟨-, i, -, rfl⟩ | ⟨-, b, -, -, rfl⟩ := packInto_eq_next.1 h
  · exact .raised (by decide) _
  · exact .raised (by decide) i
  · exact .clear hready.1

theorem unpackInto_clearOrRaised {r : Nat} (hready : s.ready) (h : unpackInto s r = .next t) : ClearOrRaised s t := by
  obtain ⟨n, -, rfl⟩ | ⟨l, -, -, rfl⟩ := unpackInto_eq_next.1 h
  · exact .raised (by decide) n
  · exact .clear hready.1

variable (hclear : s.fault = false)
include hclear

theorem unlessFaulted_clearOrRaised {k : Result} (hk : k = .next t → ClearOrRaised s t)
    (h : unlessFaulted s k = .next t) : ClearOrRaised s t :=
  hk ((unlessFaulted_of_clear hclear k).symm.trans h)

theorem unitCommand_clearOrRaised {i : Instr} {k : Result} (hk : s.ready → k = .next t → ClearOrRaised s t)
    (h : unitCommand i s k = .next t) : ClearOrRaised s t := by
  obtain ⟨-, rfl⟩ | ⟨-, -, rfl⟩ | ⟨hready, hnext⟩ := unitCommand_eq_next.1 h
  · exact .clear hclear
  · exact .raised (by decide) _
  · exact hk hready hnext

/-! ### The commands -/

theorem execCfgcommit_clearOrRaised (h : execCfgcommit s = .next t) : ClearOrRaised s t := by
  obtain ⟨-, rfl⟩ | ⟨-, n, -, rfl⟩ | ⟨-, -, -, -, rfl⟩ := execCfgcommit_eq_next.1 h
  · exact .clear hclear
  · exact .raised (by decide) n
  · exact .clear hclear

theorem execWopen_clearOrRaised (h : execWopen s = .next t) : ClearOrRaised s t := by
  obtain ⟨-, rfl⟩ | ⟨-, -, rfl⟩ | ⟨-, rfl⟩ := execWopen_eq_next.1 h
  · exact .clear hclear
  · exact .raised (by decide) _
  · exact .clear hclear

theorem execWframe_clearOrRaised (h : execWframe s = .next t) : ClearOrRaised s t := by
  obtain ⟨-, rfl⟩ | ⟨-, -, rfl⟩ | ⟨-, -, rfl⟩ | ⟨-, -, -, ⟨-, rfl⟩ | ⟨-, -, rfl⟩⟩ := execWframe_eq_next.1 h
  · exact .clear hclear
  · exact .raised (by decide) _
  · exact .raised (by decide) _
  · exact .clear hclear
  · exact .clear hclear

theorem execWmotion_clearOrRaised (h : execWmotion s = .next t) : ClearOrRaised s t := by
  obtain ⟨-, rfl⟩ | ⟨-, -, rfl⟩ | ⟨-, -, rfl⟩ | ⟨-, -, -, rfl⟩ | ⟨-, -, -, -, -, rfl⟩ := execWmotion_eq_next.1 h
  · exact .clear hclear
  · exact .raised (by decide) _
  · exact .raised (by decide) _
  · exact .raised (by decide) _
  · exact .clear hclear

theorem execRopen_clearOrRaised (h : execRopen s = .next t) : ClearOrRaised s t := by
  obtain ⟨-, rfl⟩ | ⟨-, -, rfl⟩ | ⟨-, rfl⟩ := execRopen_eq_next.1 h
  · exact .clear hclear
  · exact .raised (by decide) _
  · exact .clear hclear

/-- The end of the stream is a status and no fault (R242). -/
theorem readFrameUnit_clear (h : readFrameUnit s = .next t) : t.fault = false := by
  obtain ⟨-, rfl⟩ | ⟨p, -, -, ⟨-, rfl⟩ | ⟨-, -, rfl⟩⟩ := readFrameUnit_eq_next.1 h <;> exact hclear

theorem execRframe_clearOrRaised (h : execRframe s = .next t) : ClearOrRaised s t := by
  obtain ⟨-, rfl⟩ | ⟨-, -, rfl⟩ | ⟨-, -, -, rfl⟩ | ⟨-, -, rfl⟩ | ⟨-, -, hread⟩ := execRframe_eq_next.1 h
  · exact .clear hclear
  · exact .raised (by decide) _
  · exact .raised (by decide) _
  · exact .clear hclear
  · exact .clear (readFrameUnit_clear hclear hread)

theorem readMotionUnit_clearOrRaised (h : readMotionUnit s = .next t) : ClearOrRaised s t := by
  obtain ⟨-, rfl⟩ | ⟨-, -, rfl⟩ | ⟨-, -, -, rfl⟩ | ⟨-, -, -, -, -, rfl⟩ := readMotionUnit_eq_next.1 h
  · exact .raised (by decide) _
  · exact .raised (by decide) _
  · exact .raised (by decide) _
  · exact .clear hclear

theorem execRmotion_clearOrRaised (h : execRmotion s = .next t) : ClearOrRaised s t := by
  obtain ⟨-, rfl⟩ | ⟨-, -, rfl⟩ | ⟨-, -, rfl⟩ | ⟨-, -, hread⟩ := execRmotion_eq_next.1 h
  · exact .clear hclear
  · exact .raised (by decide) _
  · exact .raised (by decide) _
  · exact readMotionUnit_clearOrRaised hclear hread

theorem exec_clearOrRaised {i : Instr} (h : exec i s = .next t) : ClearOrRaised s t := by
  cases i with
  | cfgcommit => exact execCfgcommit_clearOrRaised hclear h
  | sreset =>
    obtain rfl := execSreset_eq_next.1 h
    exact .clear (resetBlock_fault s)
  | mvpack => exact unitCommand_clearOrRaised hclear packInto_clearOrRaised h
  | mvunpack => exact unitCommand_clearOrRaised hclear unpackInto_clearOrRaised h
  | mvqpack => exact unitCommand_clearOrRaised hclear packInto_clearOrRaised h
  | mvunpackq => exact unitCommand_clearOrRaised hclear unpackInto_clearOrRaised h
  | wopen => exact execWopen_clearOrRaised hclear h
  | wframe => exact execWframe_clearOrRaised hclear h
  | wmotion => exact execWmotion_clearOrRaised hclear h
  | ropen => exact execRopen_clearOrRaised hclear h
  | rframe => exact execRframe_clearOrRaised hclear h
  | rmotion => exact execRmotion_clearOrRaised hclear h

/-! ### The host's events -/

theorem perform_hwrite_cmd_clearOrRaised {w : Word} (h : perform (.hwrite 0 w) s = .next t) : ClearOrRaised s t := by
  obtain ⟨i, -, hexec⟩ | ⟨e, -, ⟨-, rfl⟩ | ⟨-, rfl⟩⟩ := command_eq_next.1 h
  · exact exec_clearOrRaised hclear hexec
  · exact .clear hclear
  · exact .raised (by decide) _

/-- A write to any register but `CMD` raises no fault. -/
theorem perform_hwrite_clear {n : Nat} {v : Word} (hpos : 0 < n) (h : perform (.hwrite n v) s = .next t) :
    t.fault = false := by
  by_cases hconfig : 4 ≤ n ∧ n ≤ 8
  · obtain ⟨u, hwrite, hfault, -⟩ := perform_hwrite_config hconfig.1 hconfig.2 v s
    rw [hwrite, unlessFaulted_of_clear hclear, next_eq_next] at h
    exact h ▸ hfault.trans hclear
  · rw [perform_hwrite_readOnly (by omega), next_eq_next] at h
    exact h ▸ hclear

theorem reply_clear {r : Reply} (h : reply s r = .next t) : t.fault = false := by
  obtain rfl := next_eq_next.1 h
  exact hclear

theorem perform_clearOrRaised {e : HostEvent} (h : perform e s = .next t) : ClearOrRaised s t := by
  cases e with
  | hwrite n v =>
    obtain rfl | hpos := n.eq_zero_or_pos
    · exact perform_hwrite_cmd_clearOrRaised hclear h
    · exact .clear (perform_hwrite_clear hclear hpos h)
  | hloadp b =>
    refine unlessFaulted_clearOrRaised hclear (fun hload => ?_) h
    obtain ⟨-, rfl⟩ := loadPb_eq_next.1 hload
    exact .clear hclear
  | hloadf l =>
    refine unlessFaulted_clearOrRaised hclear (fun hload => ?_) h
    obtain ⟨-, rfl⟩ := loadFb_eq_next.1 hload
    exact .clear hclear
  | hloadin src =>
    refine unlessFaulted_clearOrRaised hclear (fun hload => ?_) h
    obtain ⟨-, rfl⟩ := loadIn_eq_next.1 hload
    exact .clear hclear
  | hardReset =>
    rw [perform_reset (.inl rfl) h]
    exact .clear (resetBlock_fault s)
  | hread | hreadp | hreadf | hreadout | hreadin => exact .clear (reply_clear hclear h)

end Precise

/-- Settles O12: of the two ways an event can end, the fault is `raise`, which writes the three elements of the fault
record. -/
theorem faultsArePrecise : Obligations.FaultsArePrecise :=
  fun _ _ _ hclear h hfault => (perform_clearOrRaised hclear h).of_fault hfault

end Sys2Proof.Machine

/-! The ends of commands and events: every way in which each can come to a next state, said once (R44,
R120 to R122, R146 to R149, R171 to R173, R191 to R193, R241). What is said of all commands or of all events follows from it by
cases. -/

namespace Sys2Proof.Machine

/-! ## The rows of the fault table (R241) -/

/-- A command is out of turn: it has no active configuration or the wrong session state (R120, R174, R194). -/
def OutOfTurn (s : State) (i : Instr) : Prop :=
  s.cfgOk = false ∨ i = .wframe ∧ s.wstate ≠ .frame ∨ i = .wmotion ∧ s.wstate ≠ .motion ∨
    i = .rframe ∧ s.rstate ≠ .frame ∧ s.rstate ≠ .done ∨ i = .rmotion ∧ s.rstate ≠ .motion

/-- The table of R241 for the twelve commands: which fault a command raises, on which condition, with which `INFO`. -/
inductive FaultRow (s : State) : Instr → Cause → Nat → Prop where
  | truncMotion (hshort : s.inp.length - s.cur < s.mlen) : FaultRow s .rmotion .truncMotion (s.inp.length - s.cur)
  | truncSentinel (hfield : s.mlen ≤ s.inp.length - s.cur) (hshort : s.inp.length - s.cur - s.mlen < s.slen) :
    FaultRow s .rmotion .truncSentinel (s.inp.length - s.cur - s.mlen)
  | truncPayload {i : Instr} (hi : i = .mvunpack ∨ i = .mvunpackq) (hlen : s.pb.length ≠ s.mlen) :
    FaultRow s i .truncPayload s.pb.length
  | valueRange {n : Nat} (hfirst : firstMisfit s.fb s.bitwidth = some n) : FaultRow s .mvpack .valueRange n
  | shiftedRange {n : Nat} (hfirst : firstMisfit (quant s.fb s.radius) s.bitwidth = some n) :
    FaultRow s .mvqpack .valueRange n
  | configInvalid {n : Nat} (hcheck : s.configCheck = some n) : FaultRow s .cfgcommit .configInvalid n
  | fieldLength {i : Instr} (hi : i = .mvpack ∨ i = .mvqpack) (hlen : s.fb.length ≠ s.nfields) :
    FaultRow s i .lengthMismatch s.fb.length
  | payloadLength (hlen : s.pb.length ≠ s.mlen) : FaultRow s .wmotion .lengthMismatch s.pb.length
  | sentinelMismatch (hother : memRead s (s.cur + s.mlen) s.slen ≠ s.sentinel) :
    FaultRow s .rmotion .sentinelMismatch (s.cur + s.mlen)
  | sequence {i : Instr} (hcfgcommit : i ≠ .cfgcommit) (hsreset : i ≠ .sreset) (hturn : OutOfTurn s i) :
    FaultRow s i .sequence (encode i).toNat

theorem FaultRow.cause_ne_noFault {s : State} {i : Instr} {c : Cause} {n : Nat} (h : FaultRow s i c n) :
    c ≠ .noFault := by
  cases h <;> decide

/-! ## The ends of a command -/

/-- Every way in which command `i` on the block `s` can end in a next state. -/
inductive CommandEnds (s : State) : Instr → State → Prop where
  | ignored {i : Instr} (hi : i ≠ .sreset) (hfault : s.fault = true) : CommandEnds s i s
  | raised {i : Instr} {c : Cause} {n : Nat} (hclear : s.fault = false) (hrow : FaultRow s i c n) :
    CommandEnds s i (raise s c n)
  | reset : CommandEnds s .sreset (resetBlock s)
  | committed (hclear : s.fault = false) (hlegal : s.configLegal) (hfields : s.cfgFields ≤ Config.cntMax)
    (hmlen : s.cfgMlen ≤ Config.cntMax) : CommandEnds s .cfgcommit { closeSessions s with cfgOk := true }
  | packed {i : Instr} {b : Bits} (hi : i = .mvpack ∨ i = .mvqpack) (hready : s.ready) (hcap : s.admits .pb b.length) :
    CommandEnds s i { s with pb := b }
  | unpacked {i : Instr} {r : Nat} (hi : i = .mvunpack ∧ r = 0 ∨ i = .mvunpackq ∧ r = s.radius) (hready : s.ready)
    (hcap : s.admits .fb s.nfields) :
    CommandEnds s i { s with fb := dequant (unpackFields s.pb s.bitwidth s.nfields) r }
  | outOpened (hready : s.ready) : CommandEnds s .wopen { s with out := [], wk := 0, wstate := .frame }
  /-- A unit appended: a motion unit is then owed, or the frame is complete and counted. -/
  | appended {i : Instr} {w : WState} {k : Nat} (hi : i = .wframe ∨ i = .wmotion) (hready : s.ready)
    (hcap : s.admits .out (s.out.length + s.pb.length + s.slen))
    (hmoves : w = .motion ∧ k = s.wk ∧ s.owesMotion s.wk = true ∨ w = .frame ∧ k = s.wk + 1) :
    CommandEnds s i { memWrite s (s.pb ++ s.sentinel) with wstate := w, wk := k }
  | inOpened (hready : s.ready) :
    CommandEnds s .ropen { s with cur := 0, rk := 0, rstate := .frame, eos := false, trailing := false }
  | streamEnded (hready : s.ready) (hturn : s.rstate = .frame) : CommandEnds s .rframe (endOfStream s)
  | stillEnded (hready : s.ready) (hturn : s.rstate = .done) : CommandEnds s .rframe s
  /-- A unit of `n` bits read: a motion unit is then owed, or the frame is complete and counted. -/
  | unitRead {i : Instr} {n : Nat} {r : RState} {k : Nat} (hi : i = .rframe ∨ i = .rmotion) (hready : s.ready)
    (hturn : s.rstate = .frame ∨ s.rstate = .motion) (hcap : s.admits .pb n)
    (hwhole : s.cur + n + s.slen ≤ s.inp.length)
    (hmoves : r = .motion ∧ k = s.rk ∧ s.owesMotion s.rk = true ∨ r = .frame ∧ k = s.rk + 1) :
    CommandEnds s i { s with pb := memRead s s.cur n, cur := s.cur + n + s.slen, rstate := r, rk := k }

theorem slen_pos (s : State) : 0 < s.slen := List.length_pos_of_ne_nil (sentinel_ne_nil s)

theorem le_length_of_find_eq_some {pat b : Bits} {c p : Nat} (hfind : find pat b c = some p) : c ≤ b.length := by
  by_contra hpast
  rw [find, if_neg hpast] at hfind
  cases hfind

/-- A pattern that is found stands whole in the sequence, at or behind the start of the search. -/
theorem find_bounds {pat b : Bits} {c p : Nat} (hpat : pat ≠ []) (hfind : find pat b c = some p) :
    c ≤ p ∧ p + pat.length ≤ b.length := by
  obtain ⟨hcp, hstands, -⟩ := (find_eq_some_iff hpat (le_length_of_find_eq_some hfind)).1 hfind
  exact ⟨hcp, ((prefix_drop_iff hpat p).1 hstands).1⟩

theorem unpack_eq_ok_iff {b : Bits} {w n : Nat} {l : List Int} :
    unpack b w n = .ok l ↔ b.length = n * w ∧ l = unpackFields b w n := by
  by_cases hlen : b.length = n * w <;> simp [unpack, hlen, eq_comm (a := l)]

theorem unpack_eq_error_iff {b : Bits} {w n m : Nat} : unpack b w n = .error m ↔ b.length ≠ n * w ∧ m = b.length := by
  by_cases hlen : b.length = n * w <;> simp [unpack, hlen, eq_comm (a := m)]

section Commands
variable {s t : State} {i : Instr}

/-- Steps 1 and 4 of R120 for a unit's command. -/
theorem unitCommand_ends {k : Result} (hcfgcommit : i ≠ .cfgcommit) (hsreset : i ≠ .sreset)
    (hk : s.ready → k = .next t → CommandEnds s i t) (h : unitCommand i s k = .next t) : CommandEnds s i t := by
  obtain ⟨hfault, rfl⟩ | ⟨hclear, hoff, rfl⟩ | ⟨hready, hnext⟩ := unitCommand_eq_next.1 h
  · exact .ignored hsreset hfault
  · exact .raised hclear (.sequence hcfgcommit hsreset (.inl hoff))
  · exact hk hready hnext

theorem execCfgcommit_ends (h : execCfgcommit s = .next t) : CommandEnds s .cfgcommit t := by
  obtain ⟨hfault, rfl⟩ | ⟨hclear, n, hcheck, rfl⟩ | ⟨hclear, hpass, hfields, hmlen, rfl⟩ := execCfgcommit_eq_next.1 h
  · exact .ignored (by decide) hfault
  · exact .raised hclear (.configInvalid hcheck)
  · exact .committed hclear (configCheck_eq_none_iff.1 hpass) hfields hmlen

/-- What is packed is `FB`, or the shifted field for MVQPACK. -/
theorem packInto_ends {l : List Int} (hi : i = .mvpack ∧ l = s.fb ∨ i = .mvqpack ∧ l = quant s.fb s.radius)
    (hready : s.ready) (h : packInto s l = .next t) : CommandEnds s i t := by
  have hi' : i = .mvpack ∨ i = .mvqpack := hi.imp And.left And.left
  obtain ⟨hlen, rfl⟩ | ⟨-, n, hpack, rfl⟩ | ⟨-, b, -, hcap, rfl⟩ := packInto_eq_next.1 h
  · exact .raised hready.1 (.fieldLength hi' hlen)
  · have hfirst := pack_eq_error_iff.1 hpack
    obtain ⟨rfl, rfl⟩ | ⟨rfl, rfl⟩ := hi
    · exact .raised hready.1 (.valueRange hfirst)
    · exact .raised hready.1 (.shiftedRange hfirst)
  · exact .packed hi' hready hcap

theorem unpackInto_ends {r : Nat} (hi : i = .mvunpack ∧ r = 0 ∨ i = .mvunpackq ∧ r = s.radius) (hready : s.ready)
    (h : unpackInto s r = .next t) : CommandEnds s i t := by
  obtain ⟨n, hunpack, rfl⟩ | ⟨l, hunpack, hcap, rfl⟩ := unpackInto_eq_next.1 h
  · obtain ⟨hlen, rfl⟩ := unpack_eq_error_iff.1 hunpack
    rw [← mlen_of_active hready.2] at hlen
    exact .raised hready.1 (.truncPayload (hi.imp And.left And.left) hlen)
  · obtain ⟨-, rfl⟩ := unpack_eq_ok_iff.1 hunpack
    rw [length_dequant, length_unpackFields] at hcap
    exact .unpacked hi hready hcap

theorem execWopen_ends (h : execWopen s = .next t) : CommandEnds s .wopen t :=
  unitCommand_ends (by decide) (by decide) (fun hready hnext => next_eq_next.1 hnext ▸ .outOpened hready) h

theorem execWframe_ends (h : execWframe s = .next t) : CommandEnds s .wframe t := by
  obtain ⟨hfault, rfl⟩ | ⟨hclear, hoff, rfl⟩ | ⟨hready, hturn, rfl⟩ |
    ⟨hready, -, hcap, ⟨howes, rfl⟩ | ⟨-, -, rfl⟩⟩ := execWframe_eq_next.1 h
  · exact .ignored (by decide) hfault
  · exact .raised hclear (.sequence (by decide) (by decide) (.inl hoff))
  · exact .raised hready.1 (.sequence (by decide) (by decide) (.inr (.inl ⟨rfl, hturn⟩)))
  · exact .appended (.inl rfl) hready hcap (.inl ⟨rfl, rfl, howes⟩)
  · exact .appended (.inl rfl) hready hcap (.inr ⟨rfl, rfl⟩)

theorem execWmotion_ends (h : execWmotion s = .next t) : CommandEnds s .wmotion t := by
  obtain ⟨hfault, rfl⟩ | ⟨hclear, hoff, rfl⟩ | ⟨hready, hturn, rfl⟩ | ⟨hready, -, hlen, rfl⟩ |
    ⟨hready, -, -, hcap, -, rfl⟩ := execWmotion_eq_next.1 h
  · exact .ignored (by decide) hfault
  · exact .raised hclear (.sequence (by decide) (by decide) (.inl hoff))
  · exact .raised hready.1 (.sequence (by decide) (by decide) (.inr (.inr (.inl ⟨rfl, hturn⟩))))
  · exact .raised hready.1 (.payloadLength hlen)
  · exact .appended (.inr rfl) hready hcap (.inr ⟨rfl, rfl⟩)

theorem execRopen_ends (h : execRopen s = .next t) : CommandEnds s .ropen t :=
  unitCommand_ends (by decide) (by decide) (fun hready hnext => next_eq_next.1 hnext ▸ .inOpened hready) h

theorem readFrameUnit_ends (hready : s.ready) (hturn : s.rstate = .frame) (h : readFrameUnit s = .next t) :
    CommandEnds s .rframe t := by
  obtain ⟨-, rfl⟩ | ⟨p, hfind, hcap, hmoves⟩ := readFrameUnit_eq_next.1 h
  · exact .streamEnded hready hturn
  · have hbounds : s.cur ≤ p ∧ p + s.slen ≤ s.inp.length := find_bounds (sentinel_ne_nil s) hfind
    have hwhole : s.cur + (p - s.cur) + s.slen ≤ s.inp.length := by omega
    obtain ⟨howes, rfl⟩ | ⟨-, -, rfl⟩ := hmoves
    · exact .unitRead (.inl rfl) hready (.inl hturn) hcap hwhole (.inl ⟨rfl, rfl, howes⟩)
    · exact .unitRead (.inl rfl) hready (.inl hturn) hcap hwhole (.inr ⟨rfl, rfl⟩)

theorem execRframe_ends (h : execRframe s = .next t) : CommandEnds s .rframe t := by
  obtain ⟨hfault, rfl⟩ | ⟨hclear, hoff, rfl⟩ | ⟨hready, hframe, hdone, rfl⟩ | ⟨hready, hturn, rfl⟩ |
    ⟨hready, hturn, hread⟩ := execRframe_eq_next.1 h
  · exact .ignored (by decide) hfault
  · exact .raised hclear (.sequence (by decide) (by decide) (.inl hoff))
  · exact .raised hready.1
      (.sequence (by decide) (by decide) (.inr (.inr (.inr (.inl ⟨rfl, hframe, hdone⟩)))))
  · exact .stillEnded hready hturn
  · exact readFrameUnit_ends hready hturn hread

theorem readMotionUnit_ends (hready : s.ready) (hturn : s.rstate = .motion) (h : readMotionUnit s = .next t) :
    CommandEnds s .rmotion t := by
  obtain ⟨hshort, rfl⟩ | ⟨hfield, hshort, rfl⟩ | ⟨-, -, hother, rfl⟩ | ⟨hfield, hsentinel, -, hcap, -, rfl⟩ :=
    readMotionUnit_eq_next.1 h
  · exact .raised hready.1 (.truncMotion hshort)
  · exact .raised hready.1 (.truncSentinel hfield hshort)
  · exact .raised hready.1 (.sentinelMismatch hother)
  · have hpos := slen_pos s
    exact .unitRead (.inr rfl) hready (.inr hturn) hcap (by omega) (.inr ⟨rfl, rfl⟩)

theorem execRmotion_ends (h : execRmotion s = .next t) : CommandEnds s .rmotion t := by
  obtain ⟨hfault, rfl⟩ | ⟨hclear, hoff, rfl⟩ | ⟨hready, hturn, rfl⟩ | ⟨hready, hturn, hread⟩ :=
    execRmotion_eq_next.1 h
  · exact .ignored (by decide) hfault
  · exact .raised hclear (.sequence (by decide) (by decide) (.inl hoff))
  · exact .raised hready.1
      (.sequence (by decide) (by decide) (.inr (.inr (.inr (.inr ⟨rfl, hturn⟩)))))
  · exact readMotionUnit_ends hready hturn hread

theorem exec_ends (h : exec i s = .next t) : CommandEnds s i t := by
  cases i with
  | cfgcommit => exact execCfgcommit_ends h
  | sreset => exact execSreset_eq_next.1 h ▸ .reset
  | mvpack => exact unitCommand_ends (by decide) (by decide) (packInto_ends (.inl ⟨rfl, rfl⟩)) h
  | mvunpack => exact unitCommand_ends (by decide) (by decide) (unpackInto_ends (.inl ⟨rfl, rfl⟩)) h
  | mvqpack => exact unitCommand_ends (by decide) (by decide) (packInto_ends (.inr ⟨rfl, rfl⟩)) h
  | mvunpackq => exact unitCommand_ends (by decide) (by decide) (unpackInto_ends (.inr ⟨rfl, rfl⟩)) h
  | wopen => exact execWopen_ends h
  | wframe => exact execWframe_ends h
  | wmotion => exact execWmotion_ends h
  | ropen => exact execRopen_ends h
  | rframe => exact execRframe_ends h
  | rmotion => exact execRmotion_ends h

end Commands

/-! ## The ends of an event -/

/-- Every way in which the event `e` on the block `s` can end in a next state. -/
inductive EventEnds (s : State) : HostEvent → State → Prop where
  | command {i : Instr} {t : State} (h : CommandEnds s i t) : EventEnds s (issue i) t
  | illegal {w : Word} (hw : ∀ i, w ≠ encode i) (hclear : s.fault = false) :
    EventEnds s (.hwrite 0 w) (raise s .illegalCommand w.toNat)
  | ignored {e : HostEvent} : EventEnds s e s
  | configured {n : Nat} {v : Word} (m : BitVec 2) (fr fc b r : Nat) :
    EventEnds s (.hwrite n v) { configWritten s with mode := m, frows := fr, fcols := fc, block := b, radius := r }
  | loadedPb {b : Bits} (hcap : s.admits .pb b.length) : EventEnds s (.hloadp b) { s with pb := b }
  | loadedFb {l : List Int} (hcap : s.admits .fb l.length) : EventEnds s (.hloadf l) { s with fb := l }
  | loadedIn {src : InSource} (hcap : s.admits .inp (s.source src).length) :
    EventEnds s (.hloadin src)
      { s with inp := s.source src, cur := 0, rk := 0, rstate := .closed, eos := false, trailing := false }
  | replied {e : HostEvent} (r : Reply) : EventEnds s e { s with replies := s.replies ++ [r] }
  | reset : EventEnds s .hardReset (resetBlock s)

section Events
variable {s t : State}

theorem perform_hwrite_cmd_ends {w : Word} (h : perform (.hwrite 0 w) s = .next t) : EventEnds s (.hwrite 0 w) t := by
  obtain ⟨i, hdecode, hexec⟩ | ⟨e, hdecode, ⟨-, rfl⟩ | ⟨hclear, rfl⟩⟩ := command_eq_next.1 h
  · obtain rfl := decode_eq_ok_iff.1 hdecode
    exact .command (exec_ends hexec)
  · exact .ignored
  · exact .illegal (exists_decode_error_iff.1 ⟨e, hdecode⟩) hclear

theorem perform_hwrite_ends {n : Nat} {v : Word} (h : perform (.hwrite n v) s = .next t) :
    EventEnds s (.hwrite n v) t := by
  obtain rfl | hpos := n.eq_zero_or_pos
  · exact perform_hwrite_cmd_ends h
  · by_cases hn : 4 ≤ n ∧ n ≤ 8
    · obtain ⟨m, fr, fc, b, r, hwrite⟩ := perform_hwrite_config_eq hn v s
      obtain ⟨-, rfl⟩ | ⟨-, hnext⟩ := unlessFaulted_eq_next.1 (hwrite.symm.trans h)
      · exact .ignored
      · exact next_eq_next.1 hnext ▸ .configured m fr fc b r
    · rw [perform_hwrite_readOnly (by omega), next_eq_next] at h
      exact h ▸ .ignored

theorem unlessFaulted_ends {e : HostEvent} {k : Result} (hk : k = .next t → EventEnds s e t)
    (h : unlessFaulted s k = .next t) : EventEnds s e t := by
  obtain ⟨-, rfl⟩ | ⟨-, hnext⟩ := unlessFaulted_eq_next.1 h
  · exact .ignored
  · exact hk hnext

theorem reply_ends {e : HostEvent} {r : Reply} (h : reply s r = .next t) : EventEnds s e t :=
  next_eq_next.1 h ▸ .replied r

theorem perform_ends {e : HostEvent} (h : perform e s = .next t) : EventEnds s e t := by
  cases e with
  | hwrite n v => exact perform_hwrite_ends h
  | hloadp b =>
    refine unlessFaulted_ends (fun hload => ?_) h
    obtain ⟨hcap, rfl⟩ := loadPb_eq_next.1 hload
    exact .loadedPb hcap
  | hloadf l =>
    refine unlessFaulted_ends (fun hload => ?_) h
    obtain ⟨hcap, rfl⟩ := loadFb_eq_next.1 hload
    exact .loadedFb hcap
  | hloadin src =>
    refine unlessFaulted_ends (fun hload => ?_) h
    obtain ⟨hcap, rfl⟩ := loadIn_eq_next.1 hload
    exact .loadedIn hcap
  | hardReset => exact next_eq_next.1 h ▸ .reset
  | hread | hreadp | hreadf | hreadout | hreadin => exact reply_ends h

end Events

end Sys2Proof.Machine

/-! The invariant of the block's runs: it holds at reset, and every end of a command or an event keeps it. -/

namespace Sys2Proof.Machine

/-! ## The invariant (R6, R27, R28, R33, R38, R40, R101, R170, R190, R197) -/

theorem reset_inv : State.reset.Inv where
  memory := reset_wf
  cursor := le_rfl
  written := le_rfl
  recovered := le_rfl
  closed _ := ⟨rfl, rfl⟩
  config hon := absurd hon Bool.false_ne_true
  record := ⟨iff_of_true rfl rfl, fun _ => rfl⟩
  writerOwes hturn := by cases hturn
  readerOwes hturn := by cases hturn
  done hturn := by cases hturn
  ended heos := absurd heos Bool.false_ne_true
  leftover := rfl

/-- Settles O47: every clause, at the values of R45. -/
theorem invariantHoldsAtReset : Obligations.InvariantHoldsAtReset := reset_inv

section Invariant
variable {s t : State} (hinv : s.Inv)

/-- The invariant at reset does not depend on the parameters or on the host's side. -/
theorem resetBlock_inv (s : State) : (resetBlock s).Inv :=
  { reset_inv with memory := by simp [Memory.wf, State.admits] }

include hinv

/-- While a session of the reader is open and not done, the stream has not ended. -/
theorem eos_of_reading (hturn : s.rstate = .frame ∨ s.rstate = .motion) : s.eos = false := by
  by_contra heos
  obtain hends | hends := hinv.ended (Bool.eq_true_of_not_eq_false heos) <;> simp [hends] at hturn

theorem raise_inv {c : Cause} (hc : c ≠ .noFault) (n : Nat) : (raise s c n).Inv :=
  { hinv with
    record := ⟨iff_of_false (by simp) hc, fun hclear => absurd hclear.symm Bool.false_ne_true⟩ }

/-- CFGCOMMIT: the configuration is checked and both sessions close. -/
theorem committed_inv (hlegal : s.configLegal) (hfields : s.cfgFields ≤ Config.cntMax)
    (hmlen : s.cfgMlen ≤ Config.cntMax) : State.Inv { closeSessions s with cfgOk := true } :=
  { hinv with
    closed := fun _ => ⟨rfl, rfl⟩
    config := fun _ => ⟨hlegal, hfields, hmlen⟩
    writerOwes := fun hturn => by cases hturn
    readerOwes := fun hturn => by cases hturn
    done := fun hturn => by cases hturn
    ended := fun _ => .inr rfl }

/-- A write to a configuration register: no configuration is active and both sessions close. -/
theorem configured_inv (m : BitVec 2) (fr fc b r : Nat) :
    State.Inv { configWritten s with mode := m, frows := fr, fcols := fc, block := b, radius := r } :=
  { hinv with
    closed := fun _ => ⟨rfl, rfl⟩
    config := fun hon => absurd hon Bool.false_ne_true
    writerOwes := fun hturn => by cases hturn
    readerOwes := fun hturn => by cases hturn
    done := fun hturn => by cases hturn
    ended := fun _ => .inr rfl }

theorem loadedPb_inv {b : Bits} (hcap : s.admits .pb b.length) : State.Inv { s with pb := b } :=
  { hinv with memory := ⟨hcap, hinv.memory.2⟩ }

theorem loadedFb_inv {l : List Int} (hcap : s.admits .fb l.length) : State.Inv { s with fb := l } :=
  { hinv with memory := ⟨hinv.memory.1, hcap, hinv.memory.2.2⟩ }

theorem loadedIn_inv {b : Bits} (hcap : s.admits .inp b.length) :
    State.Inv { s with inp := b, cur := 0, rk := 0, rstate := .closed, eos := false, trailing := false } :=
  { hinv with
    memory := ⟨hinv.memory.1, hinv.memory.2.1, hcap, hinv.memory.2.2.2⟩
    cursor := b.length.zero_le
    recovered := le_rfl
    closed := fun hoff => ⟨(hinv.closed hoff).1, rfl⟩
    readerOwes := fun hturn => by cases hturn
    done := fun hturn => by cases hturn
    ended := fun heos => absurd heos Bool.false_ne_true
    leftover := rfl }

theorem outOpened_inv (hready : s.ready) : State.Inv { s with out := [], wk := 0, wstate := .frame } :=
  { hinv with
    memory := ⟨hinv.memory.1, hinv.memory.2.1, hinv.memory.2.2.1, Nat.zero_le _, Nat.zero_le _⟩
    written := le_rfl
    closed := fun hoff => absurd (hoff.symm.trans hready.2) Bool.false_ne_true
    writerOwes := fun hturn => by cases hturn }

/-- A unit appended puts at least the sentinel in `OUT`, and a motion unit is owed only where `owesMotion` says. -/
theorem appended_inv {w : WState} {k : Nat} (hready : s.ready)
    (hcap : s.admits .out (s.out.length + s.pb.length + s.slen))
    (hmoves : w = .motion ∧ k = s.wk ∧ s.owesMotion s.wk = true ∨ w = .frame ∧ k = s.wk + 1) :
    State.Inv { memWrite s (s.pb ++ s.sentinel) with wstate := w, wk := k } :=
  { hinv with
    memory := memWrite_wf hinv.memory hcap
    written := by
      have hlength : (memWrite s (s.pb ++ s.sentinel)).out.length = s.out.length + (s.pb.length + s.slen) := by
        rw [memWrite_out, List.length_append, List.length_append, State.slen]
      have hwritten := hinv.written
      have hpos := slen_pos s
      change k ≤ (memWrite s (s.pb ++ s.sentinel)).out.length
      omega
    closed := fun hoff => absurd (hoff.symm.trans hready.2) Bool.false_ne_true
    writerOwes := fun hturn => by
      obtain ⟨-, rfl, howes⟩ | ⟨rfl, -⟩ := hmoves
      · exact owesMotion_eq_true_iff.1 howes
      · cases hturn }

theorem inOpened_inv (hready : s.ready) :
    State.Inv { s with cur := 0, rk := 0, rstate := .frame, eos := false, trailing := false } :=
  { hinv with
    cursor := s.inp.length.zero_le
    recovered := le_rfl
    closed := fun hoff => absurd (hoff.symm.trans hready.2) Bool.false_ne_true
    readerOwes := fun hturn => by cases hturn
    done := fun hturn => by cases hturn
    ended := fun heos => absurd heos Bool.false_ne_true
    leftover := rfl }

theorem endOfStream_inv (hready : s.ready) : (endOfStream s).Inv :=
  { hinv with
    closed := fun hoff => absurd (hoff.symm.trans hready.2) Bool.false_ne_true
    readerOwes := fun hturn => by cases hturn
    done := fun _ => rfl
    ended := fun _ => .inl rfl
    leftover := rfl }

/-- A unit read moves the cursor past at least the sentinel and not past the input. -/
theorem unitRead_inv {n : Nat} {r : RState} {k : Nat} (hready : s.ready)
    (hturn : s.rstate = .frame ∨ s.rstate = .motion) (hcap : s.admits .pb n)
    (hwhole : s.cur + n + s.slen ≤ s.inp.length)
    (hmoves : r = .motion ∧ k = s.rk ∧ s.owesMotion s.rk = true ∨ r = .frame ∧ k = s.rk + 1) :
    State.Inv { s with pb := memRead s s.cur n, cur := s.cur + n + s.slen, rstate := r, rk := k } := by
  have heos := eos_of_reading hinv hturn
  have hmoving : r = .frame ∨ r = .motion := hmoves.symm.imp And.left And.left
  exact { hinv with
    memory := takeUnit_wf (c := s.cur + n + s.slen) hinv.memory hcap
    cursor := hwhole
    recovered := by
      have hrecovered := hinv.recovered
      have hpos := slen_pos s
      change k ≤ s.cur + n + s.slen
      omega
    closed := fun hoff => absurd (hoff.symm.trans hready.2) Bool.false_ne_true
    readerOwes := fun hmotion => by
      obtain ⟨-, rfl, howes⟩ | ⟨rfl, -⟩ := hmoves
      · exact owesMotion_eq_true_iff.1 howes
      · cases hmotion
    done := fun hdone => by
      subst hdone
      simp at hmoving
    ended := fun hends => absurd (heos.symm.trans hends) Bool.false_ne_true
    leftover := by
      have hleft := hinv.leftover
      rw [heos] at hleft
      simpa [heos] using hleft }

theorem CommandEnds.inv {i : Instr} (h : CommandEnds s i t) : t.Inv := by
  cases h with
  | ignored => exact hinv
  | raised _ hrow => exact raise_inv hinv hrow.cause_ne_noFault _
  | reset => exact resetBlock_inv s
  | committed _ hlegal hfields hmlen => exact committed_inv hinv hlegal hfields hmlen
  | packed _ _ hcap => exact loadedPb_inv hinv hcap
  | unpacked _ _ hcap => exact loadedFb_inv hinv (by rwa [length_dequant, length_unpackFields])
  | outOpened hready => exact outOpened_inv hinv hready
  | appended _ hready hcap hmoves => exact appended_inv hinv hready hcap hmoves
  | inOpened hready => exact inOpened_inv hinv hready
  | streamEnded hready => exact endOfStream_inv hinv hready
  | stillEnded => exact hinv
  | unitRead _ hready hturn hcap hwhole hmoves => exact unitRead_inv hinv hready hturn hcap hwhole hmoves

theorem EventEnds.inv {e : HostEvent} (h : EventEnds s e t) : t.Inv := by
  cases h with
  | command h => exact h.inv hinv
  | illegal => exact raise_inv hinv (by decide) _
  | ignored => exact hinv
  | configured m fr fc b r => exact configured_inv hinv m fr fc b r
  | loadedPb hcap => exact loadedPb_inv hinv hcap
  | loadedFb hcap => exact loadedFb_inv hinv hcap
  | loadedIn hcap => exact loadedIn_inv hinv hcap
  | replied => exact { hinv with }
  | reset => exact resetBlock_inv s

theorem perform_inv {e : HostEvent} (h : perform e s = .next t) : t.Inv := (perform_ends h).inv hinv

end Invariant

/-- A step runs the host's next event, taken off its list. -/
theorem step_of_pending {s : State} {e : HostEvent} {rest : List HostEvent} (h : s.pending = e :: rest) :
    step s = perform e { s with pending := rest } := by
  rw [step, nextEvent, h]

theorem step_idle {s : State} (h : s.pending = []) : step s = .next s := by
  rw [step, nextEvent, h]

/-- Settles O48: a step is idle or runs an event, and every end of an event keeps the invariant. -/
theorem stepKeepsInvariant : Obligations.StepKeepsInvariant := by
  intro s t hinv h
  cases hpending : s.pending with
  | nil =>
    rw [step_idle hpending, next_eq_next] at h
    exact h ▸ hinv
  | cons e rest =>
    rw [step_of_pending hpending] at h
    exact perform_inv (s := { s with pending := rest }) { hinv with } h

end Sys2Proof.Machine

/-! What each command and event leaves unchanged, where faults come from, and what each of them means (R60, R68, R124,
R241, R253). -/

namespace Sys2Proof.Machine

/-! ## What no event changes (R6, R280) -/

section Outside
variable {s t : State}

theorem CommandEnds.outside_eq {i : Instr} (h : CommandEnds s i t) :
    t.par = s.par ∧ t.pending = s.pending ∧ t.replies = s.replies := by
  cases h <;> exact ⟨rfl, rfl, rfl⟩

theorem EventEnds.outside_eq {e : HostEvent} (h : EventEnds s e t) :
    t.par = s.par ∧ t.pending = s.pending ∧ s.replies <+: t.replies := by
  cases h with
  | command h =>
    obtain ⟨hpar, hpending, hreplies⟩ := h.outside_eq
    exact ⟨hpar, hpending, hreplies ▸ List.prefix_rfl⟩
  | replied r => exact ⟨rfl, rfl, List.prefix_append _ _⟩
  | _ => exact ⟨rfl, rfl, List.prefix_rfl⟩

end Outside

/-- Settles O8: of all ends of an event only a read touches one of the three fields, and it adds a reply. -/
theorem eventsKeepParametersAndHostSide : Obligations.EventsKeepParametersAndHostSide :=
  fun _ _ _ h => (perform_ends h).outside_eq

/-! ## Which command writes which element (R60, R68) -/

namespace CommandEnds
variable {s t : State} {i : Instr} (h : CommandEnds s i t) (hi : i ≠ .sreset)
include h hi

theorem registers_eq :
    t.mode = s.mode ∧ t.frows = s.frows ∧ t.fcols = s.fcols ∧ t.block = s.block ∧ t.radius = s.radius := by
  cases h with
  | reset => exact absurd rfl hi
  | _ => exact ⟨rfl, rfl, rfl, rfl, rfl⟩

theorem inp_eq : t.inp = s.inp := by
  cases h with
  | reset => exact absurd rfl hi
  | _ => rfl

theorem cfgOk_eq (hcommit : i ≠ .cfgcommit) : t.cfgOk = s.cfgOk := by
  cases h with
  | reset => exact absurd rfl hi
  | committed => exact absurd rfl hcommit
  | _ => rfl

theorem pb_eq (hpb : i ∉ [Instr.mvpack, .mvqpack, .rframe, .rmotion]) : t.pb = s.pb := by
  cases h with
  | reset => exact absurd rfl hi
  | packed hpack => obtain rfl | rfl := hpack <;> simp at hpb
  | unitRead hread => obtain rfl | rfl := hread <;> simp at hpb
  | _ => rfl

theorem fb_eq (hfb : i ∉ [Instr.mvunpack, .mvunpackq]) : t.fb = s.fb := by
  cases h with
  | reset => exact absurd rfl hi
  | unpacked hunpack => obtain ⟨rfl, -⟩ | ⟨rfl, -⟩ := hunpack <;> simp at hfb
  | _ => rfl

theorem writer_eq (hwriter : i ∉ [Instr.wopen, .wframe, .wmotion]) : t.out = s.out ∧ t.wk = s.wk := by
  cases h with
  | reset => exact absurd rfl hi
  | outOpened => simp at hwriter
  | appended hwrite => obtain rfl | rfl := hwrite <;> simp at hwriter
  | _ => exact ⟨rfl, rfl⟩

theorem reader_eq (hreader : i ∉ [Instr.ropen, .rframe, .rmotion]) :
    t.rk = s.rk ∧ t.cur = s.cur ∧ t.eos = s.eos ∧ t.trailing = s.trailing := by
  cases h with
  | reset => exact absurd rfl hi
  | inOpened => simp at hreader
  | streamEnded => simp at hreader
  | stillEnded => exact ⟨rfl, rfl, rfl, rfl⟩
  | unitRead hread => obtain rfl | rfl := hread <;> simp at hreader
  | _ => exact ⟨rfl, rfl, rfl, rfl⟩

end CommandEnds

/-- Settles O41: one clause for each element, by the ends of a command that write it. -/
theorem commandsWriteOnlyTheirSpaces : Obligations.CommandsWriteOnlyTheirSpaces := by
  intro i s t hexec hi
  have h := exec_ends hexec
  obtain ⟨hmode, hfrows, hfcols, hblock, hradius⟩ := h.registers_eq hi
  exact ⟨hmode, hfrows, hfcols, hblock, hradius, fun a => congrArg (·[a]?) (h.inp_eq hi),
    fun hpb a => congrArg (·[a]?) (h.pb_eq hi hpb), fun hfb a => congrArg (·[a]?) (h.fb_eq hi hfb),
    fun hwriter => (h.writer_eq hi hwriter).2, h.reader_eq hi, h.cfgOk_eq hi⟩

/-! ## Where a store goes (R62, R124) -/

/-- WFRAME and WMOTION that complete on a ready block append `PB` and the sentinel to `OUT` and keep the other
spaces. -/
theorem CommandEnds.store_eq {s t : State} {i : Instr} (h : CommandEnds s i t) (hi : i = .wframe ∨ i = .wmotion)
    (hready : s.ready) (hfault : t.fault = s.fault) :
    t.out = s.out ++ (s.pb ++ s.sentinel) ∧ t.pb = s.pb ∧ t.inp = s.inp ∧ t.fb = s.fb := by
  cases h with
  | appended => exact ⟨rfl, rfl, rfl, rfl⟩
  | ignored _ hfaulted => exact absurd (hready.1.symm.trans hfaulted) Bool.false_ne_true
  | raised => exact absurd (hready.1.symm.trans hfault.symm) Bool.false_ne_true
  | packed hother | unitRead hother => obtain rfl | rfl := hother <;> simp at hi
  | unpacked hother => obtain ⟨rfl, -⟩ | ⟨rfl, -⟩ := hother <;> simp at hi
  | _ => simp at hi

/-- Settles O40: reading the new `OUT` behind its old length reads the unit, and before it the old `OUT`. -/
theorem storesGoToTheEndOfOut : Obligations.StoresGoToTheEndOfOut := by
  intro i s t hexec hfault
  have h := exec_ends hexec
  refine ⟨fun hi hready => ?store, fun hwframe hwmotion hwopen hsreset a => ?others⟩
  case store =>
    obtain ⟨hout, hpb, hinp, hfb⟩ := h.store_eq hi hready hfault
    have hbit (a : Nat) : bitAt t .out a = (s.out ++ (s.pb ++ s.sentinel))[a]? := congrArg (·[a]?) hout
    refine ⟨fun k _ => ?_, fun a ha => ?_, fun a =>
      ⟨congrArg (·[a]?) hpb, congrArg (·[a]?) hinp, congrArg (·[a]?) hfb⟩⟩
    · rw [hbit, storeAddress, List.getElem?_append_right (by omega), Nat.add_sub_cancel_left]
    · rw [hbit]
      obtain hbefore | hbehind := ha
      · exact List.getElem?_append_left hbefore
      · rw [storeAddress] at hbehind
        rw [List.getElem?_eq_none (by simpa [State.slen] using hbehind)]
        exact (List.getElem?_eq_none (Nat.le_of_add_right_le hbehind)).symm
  case others =>
    exact congrArg (·[a]?) (h.writer_eq hsreset (by simp [hwframe, hwmotion, hwopen])).1

/-! ## Where faults come from (R241, R253) -/

section Faults
variable {s t : State} (hclear : s.fault = false) (hfault : t.fault = true)
include hclear hfault

/-- A fault that a command takes is a row of the table, and the fault record is that row's. -/
theorem CommandEnds.faultRow {i : Instr} (h : CommandEnds s i t) : FaultRow s i t.cause t.info := by
  cases h with
  | raised _ hrow => exact hrow
  | reset => exact absurd hfault Bool.false_ne_true
  | _ => exact absurd (hclear.symm.trans hfault) Bool.false_ne_true

/-- A fault comes from a command, or from an illegal word written to `CMD`. -/
theorem EventEnds.fault_cases {e : HostEvent} (h : EventEnds s e t) :
    (∃ i, e = issue i ∧ FaultRow s i t.cause t.info) ∨
      ∃ w, e = .hwrite 0 w ∧ (∀ i, w ≠ encode i) ∧ t = raise s .illegalCommand w.toNat := by
  cases h with
  | command h => exact .inl ⟨_, rfl, h.faultRow hclear hfault⟩
  | illegal hw => exact .inr ⟨_, rfl, hw, rfl⟩
  | reset => exact absurd hfault Bool.false_ne_true
  | _ => exact absurd (hclear.symm.trans hfault) Bool.false_ne_true

end Faults

/-- Settles O13: both sources of a fault are writes to `CMD`. -/
theorem onlyCommandsRaiseFaults : Obligations.OnlyCommandsRaiseFaults := by
  intro e s t hclear h hfault
  obtain ⟨i, rfl, -⟩ | ⟨w, rfl, -⟩ := (perform_ends h).fault_cases hclear hfault
  · exact ⟨encode i, rfl⟩
  · exact ⟨w, rfl⟩

theorem encode_inj {i j : Instr} : encode i = encode j ↔ i = j :=
  ⟨fun h => Except.ok.inj ((decode_eq_ok_iff.2 rfl).symm.trans (decode_eq_ok_iff.2 h)), congrArg encode⟩

/-- The range check of the shifted field, told of the signed one. -/
theorem firstMisfit_quant {l : List Int} {r w n : Nat} (hfirst : firstMisfit (quant l r) w = some n) :
    (∃ u, l[n]? = some u ∧ (u + r < 0 ∨ 2 ^ w ≤ u + r)) ∧
      ∀ (j : Nat) (u : Int), j < n → l[j]? = some u → FitsIn w (u + r) := by
  obtain ⟨⟨v, hv, hmisfit⟩, hbefore⟩ := firstMisfit_eq_some_iff.1 hfirst
  obtain ⟨u, hu, rfl⟩ := getElem?_quant_eq_some_iff.1 hv
  exact ⟨⟨u, hu, hmisfit⟩, fun j u' hj hu' => hbefore j _ hj (getElem?_quant_eq_some_iff.2 ⟨u', hu', rfl⟩)⟩

/-- A check of CFGCOMMIT that fails: the configuration is not legal, and the number is the first such check's. -/
theorem configCheck_some {s : State} {n : Nat} (hcheck : s.configCheck = some n) :
    ¬ s.configLegal ∧ ∃ m, FirstToHold s.commitFaults m ∧ n = m + 1 := by
  obtain ⟨m, hn, hfirst⟩ := configCheck_eq_some_iff.1 hcheck
  refine ⟨fun hlegal => ?_, m, hfirst, hn⟩
  rw [configCheck_eq_none_iff.2 hlegal] at hcheck
  cases hcheck

/-- Settles O14: an illegal word is the last row, and each row of a command is one of the others. -/
theorem everyFaultHasItsRow : Obligations.EveryFaultHasItsRow := by
  refine ⟨fun w s t hclear h hfault => ?_, rfl⟩
  obtain ⟨i, he, hrow⟩ | ⟨w', he, hw, rfl⟩ := (perform_ends h).fault_cases hclear hfault
  case inr =>
    obtain rfl := (HostEvent.hwrite.inj he).2
    iterate 10 right
    exact ⟨rfl, hw, rfl⟩
  obtain rfl := (HostEvent.hwrite.inj he).2
  generalize t.cause = c, t.info = n at hrow
  cases hrow with
  | truncMotion hshort => exact .inl ⟨rfl, rfl, hshort, rfl⟩
  | truncSentinel hfield hshort =>
    iterate 1 right
    exact .inl ⟨rfl, rfl, hfield, hshort, rfl⟩
  | truncPayload hi hlen =>
    iterate 2 right
    exact .inl ⟨rfl, hi.imp (congrArg encode) (congrArg encode), hlen, rfl⟩
  | valueRange hfirst =>
    iterate 3 right
    exact .inl ⟨rfl, rfl, firstMisfit_eq_some_iff.1 hfirst⟩
  | shiftedRange hfirst =>
    iterate 4 right
    exact .inl ⟨rfl, rfl, firstMisfit_quant hfirst⟩
  | configInvalid hcheck =>
    iterate 5 right
    exact .inl ⟨rfl, rfl, configCheck_some hcheck⟩
  | fieldLength hi hlen =>
    iterate 6 right
    exact .inl ⟨rfl, hi.imp (congrArg encode) (congrArg encode), hlen, rfl⟩
  | payloadLength hlen =>
    iterate 7 right
    exact .inl ⟨rfl, rfl, hlen, rfl⟩
  | sentinelMismatch hother =>
    iterate 8 right
    exact .inl ⟨rfl, rfl, hother, rfl⟩
  | sequence hcfgcommit hsreset hturn =>
    iterate 9 right
    exact .inl ⟨rfl, mt encode_inj.1 hcfgcommit, mt encode_inj.1 hsreset,
      by simpa only [OutOfTurn, encode_inj] using hturn, rfl⟩

end Sys2Proof.Machine

/-! The decoder and the step in short statements, the host's loads and reads, and that a run stops only at a limit
(R6, R44, R90, R91, R120, R255, D8, D10). -/

namespace Sys2Proof.Machine

/-! ## The decoder (R90, R91, R93) -/

/-- Settles O1: the lemma of each constructor, without the fields. -/
theorem encodedCommandDecodesToItself : Obligations.EncodedCommandDecodesToItself := by
  intro i
  obtain ⟨hwf, -, hdecode⟩ := decodeEncode i
  exact ⟨hwf, hdecode⟩

/-- Settles O2: each literal is the encoding of its command. -/
theorem opcodeWordsDecodeToTheirCommands : Obligations.OpcodeWordsDecodeToTheirCommands :=
  ⟨decode_eq_ok_iff.2 rfl, decode_eq_ok_iff.2 rfl, decode_eq_ok_iff.2 rfl, decode_eq_ok_iff.2 rfl,
    decode_eq_ok_iff.2 rfl, decode_eq_ok_iff.2 rfl⟩

/-- Settles O3: a word that decodes has the fields of its command, and the fields are the whole word. -/
theorem decodeAcceptsExactlyTheCommandWords : Obligations.DecodeAcceptsExactlyTheCommandWords :=
  fun _ _ => decode_eq_ok_iff

/-! ## The step (R73, R120, R255) -/

/-- Settles O5: the event taken off the list is a write to `CMD`, and its word decodes. -/
theorem stepRunsTheDecodedCommand : Obligations.StepRunsTheDecodedCommand := by
  intro s w i rest hpending hdecode _
  obtain rfl := decode_eq_ok_iff.1 hdecode
  rw [step_of_pending hpending]
  exact perform_issue i _

/-- Settles O6: without an event the step is idle. -/
theorem idleStepKeepsAllState : Obligations.IdleStepKeepsAllState := fun _ => step_idle

/-- Settles O10: every command but the two of the system unit asks for a configuration first. -/
theorem unconfiguredCommandsRaiseSequence : Obligations.UnconfiguredCommandsRaiseSequence := by
  intro i s hcfgcommit hsreset hclear hoff
  cases i with
  | cfgcommit => exact absurd rfl hcfgcommit
  | sreset => exact absurd rfl hsreset
  | _ => exact unitCommand_unconfigured hclear hoff _ _

/-! ## The host's loads and reads (R44) -/

section Loads
variable {s : State} (hclear : s.fault = false)
include hclear

theorem perform_hloadp {b : Bits} (hcap : s.admits .pb b.length) : perform (.hloadp b) s = .next { s with pb := b } :=
  (unlessFaulted_of_clear hclear _).trans (loadPb_eq_next.2 ⟨hcap, rfl⟩)

theorem perform_hloadf_within {l : List Int} (hcap : s.admits .fb l.length) :
    perform (.hloadf l) s = .next { s with fb := l } :=
  (unlessFaulted_of_clear hclear _).trans (loadFb_eq_next.2 ⟨hcap, rfl⟩)

theorem perform_hloadin {src : InSource} (hcap : s.admits .inp (s.source src).length) :
    perform (.hloadin src) s =
      .next { s with
        inp := s.source src, cur := 0, rk := 0, rstate := .closed, eos := false, trailing := false } :=
  (unlessFaulted_of_clear hclear _).trans (loadIn_eq_next.2 ⟨hcap, rfl⟩)

end Loads

/-- Settles O19: a load completes within its capacity, and a read only replies. -/
theorem hostLoadsAndReads : Obligations.HostLoadsAndReads :=
  fun _ hclear => ⟨fun _ => perform_hloadp hclear, fun _ => perform_hloadf_within hclear,
    fun b => perform_hloadin (src := .bits b) hclear, perform_hloadin (src := .readout) hclear, rfl, rfl, rfl, rfl⟩

/-! ## Where a run stops (R6, D8, D10, U6) -/

/-- The limit that a refusal of command `i` names, and that its result would pass it. -/
inductive LimitPassed (s : State) : Instr → Refusal → Prop where
  | payload {i : Instr} (hi : i = .mvpack ∨ i = .mvqpack ∨ i = .rmotion) (hcap : ¬ s.admits .pb s.mlen) :
    LimitPassed s i (.sequenceLimit .pb)
  | frameUnit {p : Nat} (hfind : find s.sentinel s.inp s.cur = some p) (hcap : ¬ s.admits .pb (p - s.cur)) :
    LimitPassed s .rframe (.sequenceLimit .pb)
  | field {i : Instr} (hi : i = .mvunpack ∨ i = .mvunpackq) (hcap : ¬ s.admits .fb s.nfields) :
    LimitPassed s i (.sequenceLimit .fb)
  | unit {i : Instr} (hi : i = .wframe ∨ i = .wmotion)
    (hcap : ¬ s.admits .out (s.out.length + s.pb.length + s.slen)) : LimitPassed s i (.sequenceLimit .out)
  | written {i : Instr} (hi : i = .wframe ∨ i = .wmotion) (hcount : Config.cntMax < s.wk + 1) :
    LimitPassed s i (.countLimit .wk)
  | read {i : Instr} (hi : i = .rframe ∨ i = .rmotion) (hcount : Config.cntMax < s.rk + 1) :
    LimitPassed s i (.countLimit .rk)
  | nfields (hcount : Config.cntMax < s.cfgFields) : LimitPassed s .cfgcommit (.countLimit .nfields)
  | mlen (hcount : Config.cntMax < s.cfgMlen) : LimitPassed s .cfgcommit (.countLimit .mlen)

/-- A result that is a next state, or a refusal for which `limit` holds. -/
inductive StopsOnly (limit : Refusal → Prop) : Result → Prop where
  | next (t : State) : StopsOnly limit (.next t)
  | refused {r : Refusal} (hlimit : limit r) : StopsOnly limit (.refused r)

namespace StopsOnly
variable {s : State} {limit : Refusal → Prop} {k : Result}

theorem raised (c : Cause) (n : Nat) : StopsOnly limit (Machine.raised s c n) := .next _

theorem unlessFaulted (hk : StopsOnly limit k) : StopsOnly limit (Machine.unlessFaulted s k) := by
  rw [Machine.unlessFaulted]
  split
  · exact .next s
  · exact hk

theorem unitCommand {i : Instr} (hk : s.cfgOk = true → StopsOnly limit k) :
    StopsOnly limit (Machine.unitCommand i s k) := by
  refine .unlessFaulted ?_
  split
  case isTrue hon => exact hk hon
  case isFalse => exact .raised _ _

theorem keepWithin {sp : Space} {n : Nat} (hlimit : ¬ s.admits sp n → limit (.sequenceLimit sp))
    (hk : StopsOnly limit k) : StopsOnly limit (Machine.keepWithin s sp n k) := by
  rw [Machine.keepWithin]
  split
  case isTrue => exact hk
  case isFalse hcap => exact .refused (hlimit hcap)

theorem keepCount {c : Counter} {n : Nat} (hlimit : Config.cntMax < n → limit (.countLimit c))
    (hk : StopsOnly limit k) : StopsOnly limit (Machine.keepCount c n k) := by
  rw [Machine.keepCount]
  split
  case isTrue => exact hk
  case isFalse hcount => exact .refused (hlimit (not_le.1 hcount))

end StopsOnly

section Commands
variable {s : State} {i : Instr}

/-- What is packed has the shape of `FB`, so that the payload has `MLEN` bits. -/
theorem packInto_stops {l : List Int} (hi : i = .mvpack ∨ i = .mvqpack) (hl : l.length = s.fb.length)
    (hon : s.cfgOk = true) : StopsOnly (LimitPassed s i) (packInto s l) := by
  rw [packInto]
  split
  case isTrue => exact .raised _ _
  case isFalse hlen =>
    split
    case h_1 => exact .raised _ _
    case h_2 b hpack =>
      obtain ⟨-, rfl⟩ := pack_eq_ok_iff.1 hpack
      have hpayload : (packFields l s.bitwidth).length = s.mlen := length_payload hon (hl.trans (not_not.1 hlen))
      exact .keepWithin (fun hcap => .payload (hi.imp_right .inl) (hpayload ▸ hcap)) (.next _)

theorem unpackInto_stops {r : Nat} (hi : i = .mvunpack ∨ i = .mvunpackq) :
    StopsOnly (LimitPassed s i) (unpackInto s r) := by
  rw [unpackInto]
  split
  case h_1 => exact .raised _ _
  case h_2 l hunpack =>
    obtain ⟨-, rfl⟩ := unpack_eq_ok_iff.1 hunpack
    refine .keepWithin (fun hcap => .field hi ?_) (.next _)
    rwa [length_dequant, length_unpackFields] at hcap

theorem appendUnit_stops {k : State → Result} (hi : i = .wframe ∨ i = .wmotion)
    (hk : StopsOnly (LimitPassed s i) (k (memWrite s (s.pb ++ s.sentinel)))) :
    StopsOnly (LimitPassed s i) (appendUnit s k) :=
  .keepWithin (.unit hi) hk

theorem completeWritten_stops {t : State} (hi : i = .wframe ∨ i = .wmotion) (hwk : t.wk = s.wk) :
    StopsOnly (LimitPassed s i) (completeWritten t) :=
  .keepCount (fun hcount => .written hi (hwk ▸ hcount)) (.next _)

theorem completeRead_stops {t : State} (hi : i = .rframe ∨ i = .rmotion) (hrk : t.rk = s.rk) :
    StopsOnly (LimitPassed s i) (completeRead t) :=
  .keepCount (fun hcount => .read hi (hrk ▸ hcount)) (.next _)

theorem execWframe_stops : StopsOnly (LimitPassed s .wframe) (execWframe s) := by
  refine .unitCommand fun _ => ?_
  split
  case isFalse => exact .raised _ _
  case isTrue =>
    refine appendUnit_stops (.inl rfl) ?_
    split
    · exact .next _
    · exact completeWritten_stops (.inl rfl) rfl

theorem execWmotion_stops : StopsOnly (LimitPassed s .wmotion) (execWmotion s) := by
  refine .unitCommand fun _ => ?_
  split
  case isFalse => exact .raised _ _
  case isTrue =>
    split
    · exact .raised _ _
    · exact appendUnit_stops (.inr rfl) (completeWritten_stops (.inr rfl) rfl)

theorem readFrameUnit_stops : StopsOnly (LimitPassed s .rframe) (readFrameUnit s) := by
  rw [readFrameUnit]
  split
  case h_1 => exact .next _
  case h_2 p hfind =>
    refine .keepWithin (.frameUnit hfind) ?_
    dsimp only
    split
    · exact .next _
    · exact completeRead_stops (.inl rfl) rfl

theorem readMotionUnit_stops : StopsOnly (LimitPassed s .rmotion) (readMotionUnit s) := by
  simp only [readMotionUnit]
  split
  · exact .raised _ _
  split
  · exact .raised _ _
  split
  · exact .raised _ _
  · exact .keepWithin (.payload (.inr (.inr rfl))) (completeRead_stops (.inr rfl) rfl)

theorem execCfgcommit_stops : StopsOnly (LimitPassed s .cfgcommit) (execCfgcommit s) := by
  refine .unlessFaulted ?_
  split
  · exact .raised _ _
  · exact .keepCount .nfields (.keepCount .mlen (.next _))

theorem execRframe_stops : StopsOnly (LimitPassed s .rframe) (execRframe s) := by
  refine .unitCommand fun _ => ?_
  cases s.rstate with
  | done => exact .next s
  | frame => exact readFrameUnit_stops
  | closed | motion => exact .raised _ _

theorem execRmotion_stops : StopsOnly (LimitPassed s .rmotion) (execRmotion s) := by
  refine .unitCommand fun _ => ?_
  split
  · exact readMotionUnit_stops
  · exact .raised _ _

theorem exec_stops (i : Instr) (s : State) : StopsOnly (LimitPassed s i) (exec i s) := by
  cases i with
  | cfgcommit => exact execCfgcommit_stops
  | sreset => exact .next _
  | mvpack => exact .unitCommand (packInto_stops (.inl rfl) rfl)
  | mvunpack => exact .unitCommand fun _ => unpackInto_stops (.inl rfl)
  | mvqpack => exact .unitCommand (packInto_stops (.inr rfl) (length_quant _ _))
  | mvunpackq => exact .unitCommand fun _ => unpackInto_stops (.inr rfl)
  | wopen => exact .unitCommand fun _ => .next _
  | wframe => exact execWframe_stops
  | wmotion => exact execWmotion_stops
  | ropen => exact .unitCommand fun _ => .next _
  | rframe => exact execRframe_stops
  | rmotion => exact execRmotion_stops

end Commands

/-- Settles O15: each limit of `LimitPassed` is one of the alternatives. -/
theorem commandsStopOnlyAtALimit : Obligations.CommandsStopOnlyAtALimit := by
  intro i s
  generalize hexec : exec i s = r
  cases hexec ▸ exec_stops i s with
  | next t => exact .inl ⟨t, rfl⟩
  | refused hlimit =>
    right
    cases hlimit with
    | payload hi hcap => exact .inl ⟨rfl, .inl ⟨hi, hcap⟩⟩
    | frameUnit hfind hcap => exact .inl ⟨rfl, .inr ⟨rfl, _, hfind, hcap⟩⟩
    | field hi hcap => exact .inr (.inl ⟨rfl, hi, hcap⟩)
    | unit hi hcap => exact .inr (.inr (.inl ⟨rfl, hi, hcap⟩))
    | written hi hcount => exact .inr (.inr (.inr (.inl ⟨rfl, hi, hcount⟩)))
    | read hi hcount => exact .inr (.inr (.inr (.inr (.inl ⟨rfl, hi, hcount⟩))))
    | nfields hcount => exact .inr (.inr (.inr (.inr (.inr (.inl ⟨rfl, rfl, hcount⟩)))))
    | mlen hcount => exact .inr (.inr (.inr (.inr (.inr (.inr ⟨rfl, rfl, hcount⟩)))))

end Sys2Proof.Machine

/-! What no rule reads: other values of `MVW` and `HOSTBUS`, of the host's pending events and of the input before
the cursor change the outcome of nothing but themselves (R6, R61, R73, D3, D9). -/

namespace Sys2Proof.Machine

/-- Values for the elements that a command does not read: of the input only what stands before the cursor. -/
structure Unread where
  input : Bits
  mvw : Nat
  hostBus : String
  pending : List HostEvent

/-- `s` with other values of what a command does not read. -/
def withUnread (u : Unread) (s : State) : State :=
  { s with inp := u.input, par := { s.par with mvw := u.mvw, hostBus := u.hostBus }, pending := u.pending }

/-- The input of `u` has the length of that of `s` and agrees with it from the cursor on. -/
structure AgreesAhead (u : Unread) (s : State) : Prop where
  length : u.input.length = s.inp.length
  ahead : u.input.drop s.cur = s.inp.drop s.cur

theorem mapState_congr {f g : State → State} {r : Result} (h : ∀ t, r = .next t → f t = g t) :
    mapState f r = mapState g r := by
  cases r with
  | next t => exact congrArg _ (h t rfl)
  | _ => rfl

/-! ## The shared operations -/

section Shared
variable {u : Unread} {s : State} {f : State → State} {k k' : Result}

theorem unlessFaulted_withUnread (hf : f s = withUnread u s) (hk : k' = mapState f k) :
    unlessFaulted (withUnread u s) k' = mapState f (unlessFaulted s k) := by
  rw [hk, unlessFaulted, unlessFaulted, apply_ite (mapState f), ← hf]
  exact ite_congr (congrArg (· = true) (hf ▸ rfl)) (fun _ => rfl) fun _ => rfl

theorem unitCommand_withUnread {i : Instr} (hk : k' = mapState (withUnread u) k) :
    unitCommand i (withUnread u s) k' = mapState (withUnread u) (unitCommand i s k) := by
  refine unlessFaulted_withUnread rfl ?_
  rw [hk, apply_ite (mapState _)]
  rfl

theorem keepWithin_withUnread {sp : Space} {n : Nat} (hk : k' = mapState f k) :
    keepWithin (withUnread u s) sp n k' = mapState f (keepWithin s sp n k) := by
  rw [hk, keepWithin, keepWithin, apply_ite (mapState f)]
  cases sp <;> rfl

theorem keepCount_mapState {c : Counter} {n : Nat} (hk : k' = mapState f k) :
    keepCount c n k' = mapState f (keepCount c n k) := by
  rw [hk, keepCount, keepCount, apply_ite (mapState f)]
  rfl

end Shared

/-! ## The commands -/

section Commands
variable (u : Unread) (s : State)

theorem packInto_withUnread (l : List Int) : packInto (withUnread u s) l = mapState (withUnread u) (packInto s l) := by
  rw [packInto, packInto, apply_ite (mapState _)]
  refine ite_congr rfl (fun _ => rfl) fun _ => ?_
  change (match pack l s.bitwidth with | .error i => _ | .ok b => _) = _
  cases pack l s.bitwidth with
  | error i => rfl
  | ok b => exact keepWithin_withUnread rfl

theorem unpackInto_withUnread (r : Nat) :
    unpackInto (withUnread u s) r = mapState (withUnread u) (unpackInto s r) := by
  rw [unpackInto, unpackInto]
  change (match unpack s.pb s.bitwidth s.nfields with | .error n => _ | .ok l => _) = _
  cases unpack s.pb s.bitwidth s.nfields with
  | error n => rfl
  | ok l => exact keepWithin_withUnread rfl

theorem completeWritten_withUnread :
    completeWritten (withUnread u s) = mapState (withUnread u) (completeWritten s) := keepCount_mapState rfl

theorem completeRead_withUnread : completeRead (withUnread u s) = mapState (withUnread u) (completeRead s) :=
  keepCount_mapState rfl

theorem appendUnit_withUnread {k : State → Result}
    (hk : ∀ t, k (withUnread u t) = mapState (withUnread u) (k t)) :
    appendUnit (withUnread u s) k = mapState (withUnread u) (appendUnit s k) :=
  keepWithin_withUnread (hk (memWrite s (s.pb ++ s.sentinel)))

theorem execCfgcommit_withUnread :
    execCfgcommit (withUnread u s) = mapState (withUnread u) (execCfgcommit s) := by
  refine unlessFaulted_withUnread rfl ?_
  change (match s.configCheck with | some n => _ | none => _) = _
  cases s.configCheck with
  | some n => rfl
  | none => exact keepCount_mapState (keepCount_mapState rfl)

theorem execWframe_withUnread : execWframe (withUnread u s) = mapState (withUnread u) (execWframe s) := by
  refine unitCommand_withUnread ?_
  rw [apply_ite (mapState _)]
  refine ite_congr rfl (fun _ => ?_) fun _ => rfl
  refine appendUnit_withUnread u s fun t => ?_
  rw [apply_ite (mapState _)]
  exact ite_congr rfl (fun _ => rfl) fun _ => completeWritten_withUnread u t

theorem execWmotion_withUnread : execWmotion (withUnread u s) = mapState (withUnread u) (execWmotion s) := by
  refine unitCommand_withUnread ?_
  rw [apply_ite (mapState _), apply_ite (mapState _)]
  refine ite_congr rfl (fun _ => ite_congr rfl (fun _ => rfl) fun _ => ?_) fun _ => rfl
  exact appendUnit_withUnread u s (completeWritten_withUnread u)

variable {u s} (hagrees : AgreesAhead u s)
include hagrees

/-- The search starts at the cursor, so it sees only what lies ahead. -/
theorem find_withUnread (pat : Bits) : find pat u.input s.cur = find pat s.inp s.cur := by
  rw [find, find, hagrees.ahead, hagrees.length]

theorem memRead_withUnread (n m : Nat) : memRead (withUnread u s) (s.cur + n) m = memRead s (s.cur + n) m := by
  change slice u.input (s.cur + n) _ = slice s.inp (s.cur + n) _
  rw [slice, slice, ← List.drop_drop, ← List.drop_drop, hagrees.ahead]

theorem takeUnit_withUnread (n : Nat) {k : State → Result}
    (hk : ∀ t, k (withUnread u t) = mapState (withUnread u) (k t)) :
    takeUnit (withUnread u s) n k = mapState (withUnread u) (takeUnit s n k) := by
  refine keepWithin_withUnread ?_
  rw [← hk]
  have hread : memRead (withUnread u s) s.cur n = memRead s s.cur n := memRead_withUnread hagrees 0 n
  change k { withUnread u s with pb := memRead (withUnread u s) s.cur n, cur := s.cur + n + s.slen } = _
  rw [hread]
  rfl

theorem endOfStream_withUnread : endOfStream (withUnread u s) = withUnread u (endOfStream s) := by
  have hleft : (withUnread u s).leftover = s.leftover := congrArg (fun n => decide (s.cur < n)) hagrees.length
  rw [endOfStream, hleft]
  rfl

theorem readFrameUnit_withUnread : readFrameUnit (withUnread u s) = mapState (withUnread u) (readFrameUnit s) := by
  have hfind : find (withUnread u s).sentinel (withUnread u s).inp (withUnread u s).cur = find s.sentinel s.inp s.cur :=
    find_withUnread hagrees s.sentinel
  rw [readFrameUnit, readFrameUnit, hfind]
  cases find s.sentinel s.inp s.cur with
  | none => exact congrArg Host.Outcome.next (endOfStream_withUnread hagrees)
  | some p =>
    refine takeUnit_withUnread hagrees (p - s.cur) fun t => ?_
    rw [apply_ite (mapState _)]
    exact ite_congr rfl (fun _ => rfl) fun _ => completeRead_withUnread u t

theorem execRframe_withUnread : execRframe (withUnread u s) = mapState (withUnread u) (execRframe s) := by
  refine unitCommand_withUnread ?_
  change (match s.rstate with | .done => _ | .frame => _ | .closed => _ | .motion => _) = _
  cases s.rstate with
  | frame => exact readFrameUnit_withUnread hagrees
  | _ => rfl

theorem readMotionUnit_withUnread :
    readMotionUnit (withUnread u s) = mapState (withUnread u) (readMotionUnit s) := by
  have hsentinel : memRead (withUnread u s) (s.cur + s.mlen) s.slen = memRead s (s.cur + s.mlen) s.slen :=
    memRead_withUnread hagrees s.mlen s.slen
  have hlength : (withUnread u s).inp.length = s.inp.length := hagrees.length
  simp only [readMotionUnit, hlength, apply_ite (mapState (withUnread u))]
  refine ite_congr rfl (fun _ => rfl) fun _ => ite_congr rfl (fun _ => rfl) fun _ => ?_
  refine ite_congr (congrArg (· ≠ s.sentinel) hsentinel) (fun _ => rfl) fun _ => ?_
  exact takeUnit_withUnread hagrees s.mlen (completeRead_withUnread u)

theorem execRmotion_withUnread : execRmotion (withUnread u s) = mapState (withUnread u) (execRmotion s) := by
  refine unitCommand_withUnread ?_
  rw [apply_ite (mapState _)]
  exact ite_congr rfl (fun _ => readMotionUnit_withUnread hagrees) fun _ => rfl

theorem exec_withUnread {i : Instr} (hi : i ≠ .sreset) :
    exec i (withUnread u s) = mapState (withUnread u) (exec i s) := by
  cases i with
  | cfgcommit => exact execCfgcommit_withUnread u s
  | sreset => exact absurd rfl hi
  | mvpack => exact unitCommand_withUnread (packInto_withUnread u s _)
  | mvunpack => exact unitCommand_withUnread (unpackInto_withUnread u s _)
  | mvqpack => exact unitCommand_withUnread (packInto_withUnread u s _)
  | mvunpackq => exact unitCommand_withUnread (unpackInto_withUnread u s _)
  | wopen => exact unitCommand_withUnread rfl
  | wframe => exact execWframe_withUnread u s
  | wmotion => exact execWmotion_withUnread u s
  | ropen => exact unitCommand_withUnread rfl
  | rframe => exact execRframe_withUnread hagrees
  | rmotion => exact execRmotion_withUnread hagrees

end Commands

/-- Settles O45: the command keeps the other elements that `withUnread` sets, so that only the input differs. -/
theorem commandsReadInputOnlyFromTheCursor : Obligations.CommandsReadInputOnlyFromTheCursor := by
  intro i s b hi hlength hahead
  have hagrees : AgreesAhead ⟨b, s.par.mvw, s.par.hostBus, s.pending⟩ s :=
    ⟨hlength, List.ext_getElem? fun a => by
      rw [List.getElem?_drop, List.getElem?_drop, hahead _ (Nat.le_add_right ..)]⟩
  refine (exec_withUnread hagrees hi).trans (mapState_congr fun t ht => ?_)
  obtain ⟨hpar, hpending, -⟩ := (exec_ends ht).outside_eq
  rw [withUnread, ← hpar, ← hpending]

/-! ## The events -/

/-- `s` with other values of `MVW` and `HOSTBUS` and other events pending, but its own input. -/
def withHost (mvw : Nat) (hostBus : String) (pending : List HostEvent) (s : State) : State :=
  withUnread ⟨s.inp, mvw, hostBus, pending⟩ s

section Events
variable {mvw : Nat} {hostBus : String} {pending : List HostEvent} {s : State}

theorem exec_withHost (i : Instr) :
    exec i (withHost mvw hostBus pending s) = mapState (withHost mvw hostBus pending) (exec i s) := by
  by_cases hi : i = .sreset
  · subst hi
    rfl
  · refine (exec_withUnread ⟨rfl, rfl⟩ hi).trans (mapState_congr fun t ht => ?_)
    rw [withHost, (exec_ends ht).inp_eq hi]

theorem command_withHost (w : Word) :
    command w (withHost mvw hostBus pending s) = mapState (withHost mvw hostBus pending) (command w s) := by
  rw [command, command]
  cases decode w with
  | ok i => exact exec_withHost i
  | error e => exact unlessFaulted_withUnread rfl rfl

theorem writeRegister_withHost (n : Nat) (v : Word) :
    writeRegister n v (withHost mvw hostBus pending s) =
      mapState (withHost mvw hostBus pending) (writeRegister n v s) := by
  rw [writeRegister, writeRegister]
  split
  case h_1 => exact command_withHost v
  case h_7 => rfl
  all_goals exact unlessFaulted_withUnread rfl rfl

theorem perform_withHost (e : HostEvent) :
    perform e (withHost mvw hostBus pending s) = mapState (withHost mvw hostBus pending) (perform e s) := by
  cases e with
  | hwrite n v => exact writeRegister_withHost n v
  | hloadp b => exact unlessFaulted_withUnread rfl (keepWithin_withUnread rfl)
  | hloadf l => exact unlessFaulted_withUnread rfl (keepWithin_withUnread rfl)
  | hloadin src => cases src <;> exact unlessFaulted_withUnread rfl (keepWithin_withUnread rfl)
  | hread n =>
    have hvalue : readRegister n (withHost mvw hostBus pending s) = readRegister n s := by
      rw [readRegister, readRegister]
      cases regOfNumber n with
      | none => rfl
      | some r => cases r <;> rfl
    rw [perform_hread, hvalue]
    rfl
  | hreadp | hreadf | hreadout | hreadin => rfl
  | hardReset => rfl

end Events

/-- Settles O52: the pending events, which an event keeps, are left as they are. -/
theorem elementWidthAndBusChangeNoOutcome : Obligations.ElementWidthAndBusChangeNoOutcome := by
  intro mvw hostBus e s
  refine (perform_withHost (pending := s.pending) e).trans (mapState_congr fun t ht => ?_)
  obtain ⟨-, hpending, -⟩ := (perform_ends ht).outside_eq
  rw [← hpending]
  rfl

/-- An event does not look at what is pending behind it. -/
theorem perform_with_pending (e : HostEvent) (rest : List HostEvent) (s : State) :
    perform e { s with pending := rest } = mapState (fun t => { t with pending := rest }) (perform e s) := by
  refine (perform_withHost (mvw := s.par.mvw) (hostBus := s.par.hostBus) e).trans (mapState_congr fun t ht => ?_)
  obtain ⟨hpar, -, -⟩ := (perform_ends ht).outside_eq
  rw [← hpar]
  rfl

/-- One more step of the machine is a step, then the others. -/
theorem run_succ (k : Nat) (s : State) :
    Host.Core.run core (k + 1) s =
      match step s with
      | .next t => Host.Core.run core k t
      | .fault r => .fault r
      | .refused r => .refused r := by
  cases hstep : step s <;> simp [Host.Core.run, core, hstep]

/-- Settles O7: by induction on the events, each performed alike with the others pending and without. -/
theorem stepsRunTheHostsEventsInOrder : Obligations.StepsRunTheHostsEventsInOrder := by
  intro es
  induction es with
  | nil => exact fun _ => rfl
  | cons e rest ih =>
    intro s
    have hstep : step { s with pending := e :: rest } =
        mapState (fun t => { t with pending := rest }) (perform e { s with pending := [] }) :=
      perform_with_pending e rest { s with pending := [] }
    rw [List.length_cons, run_succ, hstep, performAll]
    cases hperform : perform e { s with pending := [] } with
    | next t =>
      obtain ⟨-, hpending, -⟩ := (perform_ends hperform).outside_eq
      have hnone : { t with pending := [] } = t := by rw [← show t.pending = [] from hpending]
      exact (ih t).trans (by rw [hnone])
    | fault r => rfl
    | refused r => rfl

end Sys2Proof.Machine

/-! The numbers of the motion field's components (R98, R140), the recommended byte packing
(R66), and the values an element of the field buffer must hold (D9). -/

namespace Sys2Proof.Machine

/-! ## The grid's field numbers (R98, R140) -/

/-- Row, column and component are the digits of the field number, of which only the row's is unbounded. -/
theorem fieldIndex_eq_iff {s : State} {r c k i : Nat} (hc : c < s.bcols) (hk : k < 2) :
    s.fieldIndex r c k = i ↔ r = i / 2 / s.bcols ∧ c = i / 2 % s.bcols ∧ k = i % 2 := by
  have hcomponent : s.fieldIndex r c k = i ↔ i / 2 = r * s.bcols + c ∧ i % 2 = k := by
    rw [State.fieldIndex]
    omega
  have hgrid : i / 2 = r * s.bcols + c ↔ i / 2 / s.bcols = r ∧ i / 2 % s.bcols = c := by
    rw [Nat.div_mod_unique (Nat.zero_lt_of_lt hc), eq_comm (a := i / 2), Nat.add_comm, Nat.mul_comm]
    exact (and_iff_left hc).symm
  rw [hcomponent, hgrid, and_assoc, eq_comm (a := r), eq_comm (a := c), eq_comm (a := k)]

/-- Settles O28: a number below `NFIELDS` has its row below `BROWS`, and its digits are its only place. -/
theorem fieldNumbersCoverTheGrid : Obligations.FieldNumbersCoverTheGrid := by
  intro s hon i
  rw [nfields_of_active hon]
  have hrow : i < s.brows * s.bcols * 2 ↔ i / 2 < s.brows * s.bcols := by omega
  rw [hrow]
  constructor
  · intro hi
    have hcols : 0 < s.bcols := Nat.pos_of_ne_zero fun hzero => by simp [hzero] at hi
    have hcol : i / 2 % s.bcols < s.bcols := Nat.mod_lt _ hcols
    have hcomponent : i % 2 < 2 := Nat.mod_lt _ two_pos
    refine ⟨i / 2 / s.bcols, i / 2 % s.bcols, i % 2, Nat.div_lt_of_lt_mul (Nat.mul_comm _ _ ▸ hi), hcol, hcomponent,
      (fieldIndex_eq_iff hcol hcomponent).2 ⟨rfl, rfl, rfl⟩, fun r' c' k' hc' hk' h => ?_⟩
    exact (fieldIndex_eq_iff hc' hk').1 h
  · rintro ⟨r, c, k, hr, hc, hk, hindex, -⟩
    obtain ⟨hrow, -, -⟩ := (fieldIndex_eq_iff hc hk).1 hindex
    exact Nat.lt_mul_of_div_lt (hrow ▸ hr) (Nat.zero_lt_of_lt hc)

/-! ## The recommended byte packing (R66) -/

/-- The byte of the first eight bits is their binary number. -/
theorem toNat_byteOf (b : Bits) : (byteOf b).toNat = val (b.take 8) := by
  have hlt : val (b.take 8) < 2 ^ 8 :=
    (val_lt_two_pow _).trans_le (Nat.pow_le_pow_right two_pos (List.length_take_le 8 b))
  rw [byteOf, BitVec.toNat_ofNat, Nat.mod_eq_of_lt hlt]

theorem enc_byteOf {b : Bits} (hlen : 8 ≤ b.length) : enc 8 (byteOf b).toNat = b.take 8 := by
  rw [toNat_byteOf, enc_val_of_length (List.length_take_of_le hlen)]

/-- Bit `j` of the sequence stands in bit `7 - j` of its byte. -/
theorem getLsbD_byteOf {b : Bits} {j : Nat} (hlen : 8 ≤ b.length) (hj : j < 8) :
    some ((byteOf b).getLsbD (7 - j)) = b[j]? := by
  have hbit := enc_getElem? (byteOf b).toNat hj
  rw [enc_byteOf hlen, List.getElem?_take_of_lt hj] at hbit
  rw [hbit, BitVec.getLsbD, Nat.testBit_eq_decide_div_mod_eq]

@[simp] theorem length_wholeBytes (n : Nat) (b : Bits) : (wholeBytes n b).length = n := by
  induction n generalizing b with
  | zero => rfl
  | succ n ih => rw [wholeBytes, List.length_cons, ih]

/-- Byte `i` is that of the bits from `8i` on. -/
theorem getElem?_wholeBytes {n i : Nat} (hi : i < n) (b : Bits) :
    (wholeBytes n b)[i]? = some (byteOf (b.drop (8 * i))) := by
  induction n generalizing i b with
  | zero => exact absurd hi i.not_lt_zero
  | succ n ih =>
    cases i with
    | zero => rfl
    | succ i =>
      rw [wholeBytes, List.getElem?_cons_succ, ih (Nat.lt_of_succ_lt_succ hi), List.drop_drop]
      congr 3
      omega

theorem streamOf_wholeBytes {n : Nat} {b : Bits} (hlen : b.length = 8 * n) : streamOf (wholeBytes n b) = b := by
  induction n generalizing b with
  | zero => exact (List.eq_nil_of_length_eq_zero hlen).symm
  | succ n ih =>
    have hrest : (b.drop 8).length = 8 * n := by
      rw [List.length_drop]
      omega
    calc streamOf (wholeBytes (n + 1) b)
        = enc 8 (byteOf b).toNat ++ streamOf (wholeBytes n (b.drop 8)) := rfl
      _ = b.take 8 ++ b.drop 8 := by rw [enc_byteOf (by omega), ih hrest]
      _ = b := List.take_append_drop 8 b

/-- Settles O29: the bytes are whole, each packs its eight bits, and a bit of the stream stands before the padding. -/
theorem byteStorageKeepsTheStream : Obligations.ByteStorageKeepsTheStream := by
  rintro b pad ⟨n, hn⟩
  have hlen : (b ++ pad).length = 8 * n := List.length_append.trans hn
  have hbytes : bytesOf b pad = wholeBytes n (b ++ pad) := by rw [bytesOf, hn, Nat.mul_div_cancel_left n (by decide)]
  rw [hbytes]
  refine ⟨by rw [length_wholeBytes, hn], streamOf_wholeBytes hlen, fun i hi => ?_⟩
  have hbyte : 8 ≤ ((b ++ pad).drop (8 * (i / 8))).length := by
    rw [List.length_drop]
    omega
  rw [getElem?_wholeBytes (by omega), Option.map_some, getLsbD_byteOf hbyte (Nat.mod_lt i (by decide)),
    List.getElem?_drop, Nat.div_add_mod, List.getElem?_append_left hi]

/-! ## The width of a field-buffer element (D9) -/

/-- A field of `w` bits, less an `r` that `w` bits hold, is a two's complement number of `w + 1` bits. -/
theorem holds_of_mem_dequant {p : Config.Params} {l : List Int} {w r : Nat} {v : Int} (hwidth : w + 1 ≤ p.mvw)
    (hr : r ≤ 2 ^ w) (hfits : ∀ u ∈ l, FitsIn w u) (hv : v ∈ dequant l r) : p.holds v := by
  obtain ⟨u, hu, rfl⟩ := List.mem_map.1 hv
  obtain ⟨hnonneg, hlt⟩ := hfits u hu
  have hpow : (2 : Int) ^ w ≤ 2 ^ (p.mvw - 1) := pow_le_pow_right₀ (by decide) (by omega)
  have hr' : (r : Int) ≤ 2 ^ w := mod_cast hr
  exact ⟨by omega, by omega, by omega⟩

/-- Settles O53: what MVUNPACK and MVUNPACKQ leave in `FB` are fields of `BITWIDTH` bits, less 0 or `RADIUS`. -/
theorem elementWidthHoldsUnpackedValues : Obligations.ElementWidthHoldsUnpackedValues := by
  intro s t hready hwidth hexec hfault v hv
  have hradius : s.radius ≤ 2 ^ s.bitwidth := by
    have hwide := le_two_pow_bw s.radius
    rw [bitwidth_of_active hready.2]
    omega
  rw [exec_mvunpack_ready hready, exec_mvunpackq_ready hready] at hexec
  obtain ⟨r, hr, hunpack⟩ : ∃ r, r ≤ 2 ^ s.bitwidth ∧ unpackInto s r = .next t :=
    hexec.elim (fun h => ⟨0, Nat.zero_le _, h⟩) fun h => ⟨s.radius, hradius, h⟩
  obtain ⟨n, -, rfl⟩ | ⟨l, hfields, -, rfl⟩ := unpackInto_eq_next.1 hunpack
  · exact absurd hfault.symm Bool.false_ne_true
  · obtain ⟨-, rfl⟩ := unpack_eq_ok_iff.1 hfields
    exact holds_of_mem_dequant hwidth hr (fun _ => fitsIn_of_mem_unpackFields) hv

end Sys2Proof.Machine

/-! The reader over a stream: where it finds its next unit, what padding behind the units makes it do (R66, U16), and
that it comes to the stream's end (R197). -/

namespace Sys2Proof.Machine

/-! ## The search from the cursor on (R12) -/

theorem searchFrom_add (pat b : Bits) (p q : Nat) : searchFrom pat b (p + q) = (searchFrom pat b p).map (· + q) := by
  induction b generalizing p with
  | nil => rw [searchFrom, searchFrom]; split <;> rfl
  | cons b t ih =>
    rw [searchFrom, searchFrom, Nat.add_right_comm, ih]
    split <;> rfl

/-- The search from `c` on is the search in what stands from `c` on. -/
theorem find_eq_find_drop {pat b : Bits} {c : Nat} (hc : c ≤ b.length) :
    find pat b c = (find pat (b.drop c) 0).map (· + c) := by
  rw [find, find, if_pos hc, if_pos (Nat.zero_le _), List.drop_zero, ← searchFrom_add, Nat.zero_add]

/-! ## Padding behind the units (R66, U16) -/

section Padding
variable {s : State} {units pad : Bits} (hready : s.ready) (hturn : s.rstate = .frame) (hinp : s.inp = units ++ pad)
  (hcur : s.cur = units.length)
include hinp hcur

theorem find_padding : find s.sentinel s.inp s.cur = (find s.sentinel pad 0).map (· + units.length) := by
  rw [find_eq_find_drop (by simp [hinp, hcur]), hinp, hcur, List.drop_left]

theorem leftover_padding : s.leftover = decide (pad ≠ []) := by
  simp [State.leftover, hinp, hcur, List.length_pos_iff]

include hready hturn

theorem exec_rframe_padding_end (hfind : find s.sentinel pad 0 = none) :
    exec .rframe s = .next { s with rstate := .done, eos := true, trailing := decide (pad ≠ []) } := by
  have hend := exec_rframe_end hready hturn (by rw [find_padding hinp hcur, hfind]; rfl)
  rwa [endOfStream, leftover_padding hinp hcur] at hend

/-- The unit that the padding holds, whether it completes its frame or a motion unit is owed then. -/
theorem exec_rframe_padding_unit {p : Nat} (hfind : find s.sentinel pad 0 = some p) (hcap : s.admits .pb p)
    (hcount : s.rk + 1 ≤ Config.cntMax) :
    ∃ r k, exec .rframe s =
      .next { s with pb := pad.take p, cur := units.length + p + s.slen, rstate := r, rk := k } := by
  have hunit : find s.sentinel s.inp s.cur = some (p + units.length) := by rw [find_padding hinp hcur, hfind]; rfl
  have hwidth : p + units.length - s.cur = p := by omega
  have hbits : slice s.inp s.cur (p + units.length) = pad.take p := by rw [slice, hwidth, hinp, hcur, List.drop_left]
  rw [Nat.add_comm units.length p, ← hbits]
  by_cases howes : s.mode = 2 ∧ 0 < s.rk
  · exact ⟨_, _, exec_rframe_owing hready hturn hunit (by rwa [hwidth]) howes⟩
  · exact ⟨_, _, exec_rframe_complete hready hturn hunit (by rwa [hwidth]) howes hcount⟩

end Padding

/-- Settles O54: the search behind the units is the search in the padding. -/
theorem paddingEndsTheStreamOrIsOneMoreUnit : Obligations.PaddingEndsTheStreamOrIsOneMoreUnit := by
  refine fun s units pad hready hturn hinp hcur => ⟨exec_rframe_padding_end hready hturn hinp hcur,
    fun p hfind hcap hcount => ?_⟩
  obtain ⟨r, k, hexec⟩ := exec_rframe_padding_unit hready hturn hinp hcur hfind hcap hcount
  exact ⟨_, hexec, hready.1, rfl, rfl, rfl⟩

/-! ## The cursor moves forward (R197) -/

/-- A read that neither faults nor ends the stream takes at least the sentinel, and no more than the input holds. -/
theorem CommandEnds.cur_advances {s t : State} {i : Instr} (h : CommandEnds s i t) (hi : i = .rframe ∨ i = .rmotion)
    (hclear : t.fault = false) (hs : s.rstate ≠ .done) (ht : t.rstate ≠ .done) (hready : s.ready) :
    s.cur + s.slen ≤ t.cur ∧ t.cur ≤ t.inp.length := by
  cases h with
  | unitRead _ _ _ _ hwhole => exact ⟨by dsimp only; omega, hwhole⟩
  | ignored _ hfault => exact absurd (hready.1.symm.trans hfault) Bool.false_ne_true
  | raised => exact absurd hclear.symm Bool.false_ne_true
  | streamEnded => exact absurd rfl ht
  | stillEnded _ hturn => exact absurd hturn hs
  | packed hother | appended hother => obtain rfl | rfl := hother <;> simp at hi
  | unpacked hother => obtain ⟨rfl, -⟩ | ⟨rfl, -⟩ := hother <;> simp at hi
  | _ => simp at hi

/-! ## The decoding loop (R223) -/

/-- What a round of the decoding loop hands to the next: a state of the same configuration on the same stream that keeps
the invariant, its cursor at `c` or further on. -/
structure LoopsFrom (s : State) (c : Nat) (t : State) : Prop where
  inv : t.Inv
  ready : t.ready
  stream : t.inp = s.inp ∧ t.slen = s.slen
  cursor : c ≤ t.cur

theorem performAll_cons_eq_next {e : HostEvent} {es : List HostEvent} {s t : State} :
    performAll (e :: es) s = .next t ↔ ∃ u, perform e s = .next u ∧ performAll es u = .next t := by
  rw [performAll]
  cases perform e s <;> simp

theorem performAll_nil_eq_next {s t : State} : performAll [] s = .next t ↔ t = s := next_eq_next

theorem exec_of_performAll_issue {i : Instr} {s t : State} (h : performAll [issue i] s = .next t) :
    exec i s = .next t := by
  obtain ⟨u, hperform, hnil⟩ := performAll_cons_eq_next.1 h
  rw [← perform_issue, hperform, performAll_nil_eq_next.1 hnil]

section Loop
variable {s t u : State} {c : Nat}

/-- A command other than those of the system unit that raises no fault and does not move the cursor back. -/
theorem LoopsFrom.command {i : Instr} (h : LoopsFrom s c t) (hi : i ≠ .sreset) (hcommit : i ≠ .cfgcommit)
    (hexec : exec i t = .next u) (hclear : u.fault = false) (hcur : t.cur ≤ u.cur) : LoopsFrom s c u := by
  have hends := exec_ends hexec
  obtain ⟨hpar, -⟩ := hends.outside_eq
  exact {
    inv := hends.inv h.inv
    ready := ⟨hclear, (hends.cfgOk_eq hi hcommit).trans h.ready.2⟩
    stream := ⟨(hends.inp_eq hi).trans h.stream.1, (congrArg (·.sentinel.bits.length) hpar).trans h.stream.2⟩
    cursor := h.cursor.trans hcur }

theorem LoopsFrom.replied (h : LoopsFrom s c t) (r : Reply) : LoopsFrom s c { t with replies := t.replies ++ [r] } :=
  { inv := { h.inv with }, ready := h.ready, stream := h.stream, cursor := h.cursor }

/-- An attempt that does not end the loop leads to a state without a fault, from which it goes on. -/
theorem attempt_eq_unfinished {es : List HostEvent} {k : State → LoopEnd} (h : attempt es s k = .unfinished u) :
    ∃ t, performAll es s = .next t ∧ t.fault = false ∧ k t = .unfinished u := by
  rw [attempt] at h
  split at h
  case h_1 t ht =>
    split at h
    · cases h
    case isFalse hclear => exact ⟨t, ht, Bool.eq_false_of_not_eq_true hclear, h⟩
  case h_2 r _ => exact nomatch r
  case h_3 => cases h

/-- RMOTION that succeeds, then MVUNPACKQ and the read of the field. -/
theorem LoopsFrom.motion {v w : State} (h : LoopsFrom s c t) (hturn : t.rstate = .motion)
    (hread : performAll [issue .rmotion] t = .next v) (hv : v.fault = false)
    (hunpack : performAll [issue .mvunpackq, .hreadf] v = .next w) (hw : w.fault = false) : LoopsFrom s c w := by
  have hexec := exec_of_performAll_issue hread
  have hrow : GuardedStep (ReaderAt .frame (t.rk + 1)) t v := execRmotion_guardedStep hexec
  obtain ⟨hframe, -⟩ := hrow.row_of_clear h.ready.1 hv
  have hcur := (exec_ends hexec).cur_advances (.inr rfl) hv (by simp [hturn]) (by simp [hframe]) h.ready
  have hmotion := h.command (by decide) (by decide) hexec hv (by omega)
  obtain ⟨x, hx, hreads⟩ := performAll_cons_eq_next.1 hunpack
  obtain rfl : w = { x with replies := x.replies ++ [.ints x.fb] } := next_eq_next.1 hreads
  have hx' : exec .mvunpackq v = .next x := (perform_issue .mvunpackq v).symm.trans hx
  obtain ⟨-, hsame, -⟩ := (exec_ends hx').reader_eq (by decide) (by decide)
  exact (hmotion.command (by decide) (by decide) hx' hw hsame.ge).replied _

/-- A round that does not end the loop goes on from a state whose cursor is at least `SLEN` bits further. -/
theorem decodeLoop_round {n : Nat} (hinv : s.Inv) (hready : s.ready) (h : decodeLoop (n + 1) s = .unfinished u) :
    ∃ t, LoopsFrom s (s.cur + s.slen) t ∧ decodeLoop n t = .unfinished u := by
  rw [decodeLoop] at h
  obtain ⟨t, hframe, ht, h⟩ := attempt_eq_unfinished h
  have hexec := exec_of_performAll_issue hframe
  have hends := exec_ends hexec
  split at h
  case isTrue => cases h
  case isFalse heos =>
    have hdone : t.rstate ≠ .done := fun hdone => heos ((hends.inv hinv).done hdone)
    have hs : s.rstate ≠ .done := fun hs => by
      rw [exec_rframe_done hready hs, next_eq_next] at hexec
      exact hdone (hexec ▸ hs)
    have hcur := hends.cur_advances (.inl rfl) ht hs hdone hready
    have hself : LoopsFrom s s.cur s := ⟨hinv, hready, ⟨rfl, rfl⟩, le_rfl⟩
    have hunit : LoopsFrom s (s.cur + s.slen) t :=
      { hself.command (by decide) (by decide) hexec ht (by omega) with cursor := hcur.1 }
    obtain ⟨x, hread, hx, h⟩ := attempt_eq_unfinished h
    obtain rfl : x = { t with replies := t.replies ++ [.bits t.pb] } := next_eq_next.1 hread
    have hreplied := hunit.replied (.bits t.pb)
    split at h
    case isTrue hturn =>
      obtain ⟨v, hmotion, hv, h⟩ := attempt_eq_unfinished h
      obtain ⟨w, hunpack, hw, h⟩ := attempt_eq_unfinished h
      exact ⟨w, hreplied.motion hturn hmotion hv hunpack hw, h⟩
    case isFalse => exact ⟨_, hreplied, h⟩

/-- A loop that runs out of its rounds has moved the cursor `SLEN` bits in each. -/
theorem rounds_le_of_unfinished {n : Nat} (hinv : s.Inv) (hready : s.ready) (h : decodeLoop n s = .unfinished u) :
    s.cur + n * s.slen ≤ s.inp.length := by
  induction n generalizing s with
  | zero =>
    rw [Nat.zero_mul]
    exact hinv.cursor
  | succ n ih =>
    obtain ⟨t, hround, hrest⟩ := decodeLoop_round hinv hready h
    have hle := ih hround.inv hround.ready hrest
    obtain ⟨hinp, hslen⟩ := hround.stream
    rw [hinp, hslen] at hle
    have hcursor := hround.cursor
    rw [Nat.succ_mul]
    omega

end Loop

/-- Settles O46: each read that succeeds moves the cursor `SLEN` bits within the input, so that more than
`floor(INLEN / SLEN)` rounds do not fit. -/
theorem endOfStreamIsReached : Obligations.EndOfStreamIsReached := by
  intro s hinv hready
  refine ⟨slen_pos s, fun i t hi hexec hclear _ hs ht => (exec_ends hexec).cur_advances hi hclear hs ht hready,
    fun n t hn h => ?_⟩
  have hle := rounds_le_of_unfinished hinv hready h
  have hrounds : n ≤ s.inp.length / s.slen := (Nat.le_div_iff_mul_le (slen_pos s)).2 (by omega)
  omega

end Sys2Proof.Machine

/-! Writing a sequence of frames: the stream of R102 unit by unit, the run that writes it (R172, R173, R222), and its
length (R175). -/

namespace Sys2Proof.Machine

/-! ## The stream of a sequence of frames (R102) -/

/-- The units of frame `k`: its frame unit, and its motion unit where one is due. -/
def unitsOf (sentinel : Bits) (m : BitVec 2) (k : Nat) (f : CodedFrame) : Bits :=
  f.payload ++ sentinel ++ if motionDue m k then f.motion ++ sentinel else []

theorem layout_cons (sentinel : Bits) (m : BitVec 2) (k : Nat) (f : CodedFrame) (fs : List CodedFrame) :
    layout sentinel m k (f :: fs) = unitsOf sentinel m k f ++ layout sentinel m (k + 1) fs := rfl

section Units
variable {sentinel : Bits} {m : BitVec 2} {k : Nat}

theorem unitsOf_due (h : motionDue m k = true) (f : CodedFrame) :
    unitsOf sentinel m k f = f.payload ++ sentinel ++ (f.motion ++ sentinel) := by rw [unitsOf, if_pos h]

theorem unitsOf_not_due (h : ¬ motionDue m k = true) (f : CodedFrame) :
    unitsOf sentinel m k f = f.payload ++ sentinel := by rw [unitsOf, if_neg h, List.append_nil]

theorem length_frame_unit_le (f : CodedFrame) :
    f.payload.length + sentinel.length ≤ (unitsOf sentinel m k f).length := by
  rw [unitsOf, List.length_append, List.length_append]
  exact Nat.le_add_right ..

theorem length_units_due (h : motionDue m k = true) (f : CodedFrame) :
    (unitsOf sentinel m k f).length = f.payload.length + sentinel.length + (f.motion.length + sentinel.length) := by
  rw [unitsOf_due h]
  simp only [List.length_append]

theorem motionDue_eq_true_iff : motionDue m k = true ↔ m = 2 ∧ 0 < k := by
  rw [motionDue, Bool.and_eq_true, decide_eq_true_iff, decide_eq_true_iff, modeBm]

/-- A frame's units are part of the stream. -/
theorem length_unitsOf_le_layout {fs : List CodedFrame} {j : Nat} {f : CodedFrame} (hf : fs[j]? = some f) :
    (unitsOf sentinel m (k + j) f).length ≤ (layout sentinel m k fs).length := by
  induction fs generalizing j k with
  | nil => simp at hf
  | cons g fs ih =>
    rw [layout_cons, List.length_append]
    cases j with
    | zero =>
      obtain rfl : g = f := by simpa using hf
      exact Nat.le_add_right ..
    | succ j =>
      have hrest := ih (k := k + 1) (by simpa using hf)
      rw [Nat.add_right_comm] at hrest
      exact hrest.trans (Nat.le_add_left ..)

/-- Each frame puts at least one bit, its sentinel, in the stream. -/
theorem length_le_length_layout (hpos : 0 < sentinel.length) (fs : List CodedFrame) :
    fs.length ≤ (layout sentinel m k fs).length := by
  induction fs generalizing k with
  | nil => exact Nat.zero_le _
  | cons f fs ih =>
    have hunit := length_frame_unit_le (sentinel := sentinel) (m := m) (k := k) f
    have hrest := ih (k := k + 1)
    rw [layout_cons, List.length_append, List.length_cons]
    omega

/-- Without motion units the stream is the payloads, each with its sentinel (R175). -/
theorem length_layout_frames (hm : m ≠ 2) (fs : List CodedFrame) :
    (layout sentinel m k fs).length = (fs.map fun f => f.payload.length).sum + fs.length * sentinel.length := by
  induction fs generalizing k with
  | nil => simp [layout]
  | cons f fs ih =>
    have hunits := unitsOf_not_due (sentinel := sentinel) (fun hdue => hm (motionDue_eq_true_iff (k := k).1 hdue).1) f
    rw [layout_cons, hunits, List.length_append, List.length_append, ih, List.map_cons, List.sum_cons,
      List.length_cons, Nat.succ_mul]
    omega

/-- After frame 0 each frame of `MODE` 2 has a motion unit of `n` bits and a sentinel as well (R175). -/
theorem length_layout_motions {n : Nat} {fs : List CodedFrame} (hk : 0 < k) (hn : ∀ f ∈ fs, f.motion.length = n) :
    (layout sentinel 2 k fs).length = (fs.map fun f => f.payload.length).sum + fs.length * sentinel.length +
      fs.length * (n + sentinel.length) := by
  induction fs generalizing k with
  | nil => simp [layout]
  | cons f fs ih =>
    obtain ⟨hf, hrest⟩ := List.forall_mem_cons.1 hn
    rw [layout_cons, List.length_append, length_units_due (motionDue_eq_true_iff.2 ⟨rfl, hk⟩), hf,
      ih k.succ_pos hrest, List.map_cons, List.sum_cons, List.length_cons, Nat.succ_mul, Nat.succ_mul]
    omega

/-- The length of the whole stream in `MODE` 2 (R175). -/
theorem length_layout_block_matching {n : Nat} {fs : List CodedFrame} (hn : ∀ f ∈ fs.tail, f.motion.length = n) :
    (layout sentinel 2 0 fs).length = (fs.map fun f => f.payload.length).sum + fs.length * sentinel.length +
      (fs.length - 1) * (n + sentinel.length) := by
  cases fs with
  | nil => simp [layout]
  | cons f fs =>
    have hunits := unitsOf_not_due (sentinel := sentinel) (m := 2) (k := 0) (by decide) f
    rw [layout_cons, hunits, List.length_append, List.length_append,
      length_layout_motions (k := 0 + 1) (fs := fs) Nat.one_pos hn,
      List.map_cons, List.sum_cons, List.length_cons, Nat.succ_mul, Nat.add_sub_cancel]
    omega

end Units

theorem admits_mono {s : State} {sp : Space} {n m : Nat} (h : s.admits sp m) (hle : n ≤ m) : s.admits sp n :=
  ⟨hle.trans h.1, hle.trans h.2⟩

/-! ## Events one after another -/

section Sequence
variable {e : HostEvent} {es fs : List HostEvent} {s t : State}

theorem performAll_cons_of_next (h : perform e s = .next t) (es : List HostEvent) :
    performAll (e :: es) s = performAll es t := by
  rw [performAll, h]

theorem performAll_append_of_next (h : performAll es s = .next t) (fs : List HostEvent) :
    performAll (es ++ fs) s = performAll fs t := by
  rw [performAll_append, h]

theorem performAll_singleton (e : HostEvent) (s : State) : performAll [e] s = perform e s := by
  rw [performAll]
  cases perform e s <;> rfl

end Sequence

/-! ## The run that writes a frame (R172, R173, R222) -/

/-- A state of a writing run from `s`: `PB` and `FB` are `p` and `l`, and the writer holds `o`, `w` and `k`. -/
def writing (s : State) (p : Bits) (l : List Int) (o : Bits) (w : WState) (k : Nat) : State :=
  { s with pb := p, fb := l, out := o, wstate := w, wk := k }

/-- The events `load`, in a writing run from `s`, put `q` in `PB` and change nothing else but `FB`. -/
def Loads (s : State) (load : List HostEvent) (q : Bits) : Prop :=
  ∀ p l o w k, ∃ l', performAll load (writing s p l o w k) = .next (writing s q l' o w k)

/-- The units of a frame, its motion payload brought by the events `load`, can be written in a run from `s`. -/
structure UnitsFit (s : State) (load : List HostEvent) (due : Prop) (f : CodedFrame) : Prop where
  payload : s.admits .pb f.payload.length
  length : due → f.motion.length = s.mlen
  loads : due → Loads s load f.motion

section Frame
variable {s : State} (hready : s.ready) {p q o : Bits} {l : List Int} {k : Nat}
include hready

theorem perform_wframe_due (hcap : s.admits .out (o.length + p.length + s.slen)) (hdue : motionDue s.mode k = true) :
    perform (issue .wframe) (writing s p l o .frame k) = .next (writing s p l (o ++ (p ++ s.sentinel)) .motion k) :=
  (perform_issue ..).trans
    (exec_wframe_owing (s := writing s p l o .frame k) hready rfl hcap (motionDue_eq_true_iff.1 hdue))

theorem perform_wframe_last (hcap : s.admits .out (o.length + p.length + s.slen)) (hdue : ¬ motionDue s.mode k = true)
    (hcount : k + 1 ≤ Config.cntMax) :
    perform (issue .wframe) (writing s p l o .frame k) =
      .next (writing s p l (o ++ (p ++ s.sentinel)) .frame (k + 1)) :=
  (perform_issue ..).trans
    (exec_wframe_complete (s := writing s p l o .frame k) hready rfl hcap (mt motionDue_eq_true_iff.2 hdue) hcount)

theorem perform_wmotion (hlen : q.length = s.mlen) (hcap : s.admits .out (o.length + q.length + s.slen))
    (hcount : k + 1 ≤ Config.cntMax) :
    perform (issue .wmotion) (writing s q l o .motion k) =
      .next (writing s q l (o ++ (q ++ s.sentinel)) .frame (k + 1)) :=
  (perform_issue ..).trans
    (exec_wmotion_complete (s := writing s q l o .motion k) hready rfl hlen (hlen ▸ hcap) hcount)

/-- Loading a payload within the capacity of `PB`. -/
theorem loads_hloadp (hcap : s.admits .pb q.length) : Loads s [.hloadp q] q := fun p l o w k =>
  ⟨l, (performAll_singleton ..).trans (perform_hloadp (s := writing s p l o w k) hready.1 hcap)⟩

variable {load : List HostEvent} {f : CodedFrame} (hfits : UnitsFit s load (motionDue s.mode k = true) f)
  (hcap : s.admits .out (o.length + (unitsOf s.sentinel s.mode k f).length)) (hcount : k + 1 ≤ Config.cntMax)
include hfits hcap hcount

/-- One round of the writing loop appends the units of frame `k` and counts it. -/
theorem performAll_writeFrame (p : Bits) (l : List Int) :
    ∃ p' l', performAll ([.hloadp f.payload, issue .wframe] ++
        if motionDue s.mode k then load ++ [issue .wmotion] else []) (writing s p l o .frame k) =
      .next (writing s p' l' (o ++ unitsOf s.sentinel s.mode k f) .frame (k + 1)) := by
  have hframe : s.admits .out (o.length + f.payload.length + s.slen) := by
    have hle := length_frame_unit_le (sentinel := s.sentinel) (m := s.mode) (k := k) f
    exact admits_mono hcap (by rw [State.slen]; omega)
  have hload : perform (.hloadp f.payload) (writing s p l o .frame k) = .next (writing s f.payload l o .frame k) :=
    perform_hloadp (s := writing s p l o .frame k) hready.1 hfits.payload
  by_cases hdue : motionDue s.mode k = true
  · have hmotion : s.admits .out ((o ++ (f.payload ++ s.sentinel)).length + f.motion.length + s.slen) := by
      refine admits_mono hcap ?_
      rw [length_units_due hdue, List.length_append, List.length_append, State.slen]
      omega
    obtain ⟨l', hl'⟩ := hfits.loads hdue f.payload l (o ++ (f.payload ++ s.sentinel)) .motion k
    rw [if_pos hdue, unitsOf_due hdue, ← List.append_assoc o,
      performAll_append_of_next (performAll_pair hload (perform_wframe_due hready hframe hdue)),
      performAll_append_of_next hl', performAll_singleton]
    exact ⟨_, _, perform_wmotion hready (hfits.length hdue) hmotion hcount⟩
  · rw [if_neg hdue, unitsOf_not_due hdue, List.append_nil]
    exact ⟨_, _, performAll_pair hload (perform_wframe_last hready hframe hdue hcount)⟩

end Frame

/-! ## The run that writes all frames -/

/-- The host's loop that writes frames: each is given by its coded form and the events that bring its motion payload. The
loops of R222 in `writeEvents` and `encodeFrames` are two of its kind. -/
def writeLoop {α : Type} (code : α → CodedFrame) (load : α → List HostEvent) (m : BitVec 2) :
    Nat → List α → List HostEvent
  | _, [] => []
  | k, f :: fs =>
    [.hloadp (code f).payload, issue .wframe] ++ (if motionDue m k then load f ++ [issue .wmotion] else []) ++
      writeLoop code load m (k + 1) fs

theorem writeEvents_eq_writeLoop (m : BitVec 2) (k : Nat) (fs : List CodedFrame) :
    writeEvents m k fs = writeLoop id (fun f => [.hloadp f.motion]) m k fs := by
  induction fs generalizing k with
  | nil => rfl
  | cons f fs ih =>
    rw [writeEvents, writeLoop, ih]
    rfl

section Loop
variable {α : Type} {s : State} {code : α → CodedFrame} {load : α → List HostEvent} (hready : s.ready)
include hready

theorem performAll_writeLoop {fs : List α} {k : Nat} {o : Bits}
    (hfits : ∀ j f, fs[j]? = some f → UnitsFit s (load f) (motionDue s.mode (k + j) = true) (code f))
    (hcap : s.admits .out (o.length + (layout s.sentinel s.mode k (fs.map code)).length))
    (hcount : k + fs.length ≤ Config.cntMax) (p : Bits) (l : List Int) :
    ∃ p' l', performAll (writeLoop code load s.mode k fs) (writing s p l o .frame k) =
      .next (writing s p' l' (o ++ layout s.sentinel s.mode k (fs.map code)) .frame (k + fs.length)) := by
  induction fs generalizing k o p l with
  | nil => exact ⟨p, l, by rw [writeLoop, List.map_nil, layout, List.append_nil]; rfl⟩
  | cons f fs ih =>
    rw [List.map_cons, layout_cons, List.length_append] at hcap
    rw [List.length_cons] at hcount
    obtain ⟨p₁, l₁, hframe⟩ := performAll_writeFrame (o := o) (k := k) hready (hfits 0 f rfl)
      (admits_mono hcap (by omega)) (by omega) p l
    have hrest : ∀ j g, fs[j]? = some g → UnitsFit s (load g) (motionDue s.mode (k + 1 + j) = true) (code g) :=
      fun j g hg => (Nat.add_right_comm k j 1 ▸ hfits (j + 1) g hg :)
    obtain ⟨p', l', hloop⟩ := ih (k := k + 1) (o := o ++ unitsOf s.sentinel s.mode k (code f)) hrest
      (by rwa [List.length_append, Nat.add_assoc]) (by omega) p₁ l₁
    refine ⟨p', l', ?_⟩
    rw [writeLoop, performAll_append_of_next hframe, hloop, List.map_cons, layout_cons, List.append_assoc,
      List.length_cons, Nat.add_right_comm, Nat.add_assoc]

/-- The loop behind WOPEN writes the stream of its frames. -/
theorem performAll_wopen_writeLoop {fs : List α}
    (hfits : ∀ j f, fs[j]? = some f → UnitsFit s (load f) (motionDue s.mode j = true) (code f))
    (hcap : s.admits .out (layout s.sentinel s.mode 0 (fs.map code)).length) :
    ∃ p l, performAll (issue .wopen :: writeLoop code load s.mode 0 fs) s =
      .next (writing s p l (layout s.sentinel s.mode 0 (fs.map code)) .frame fs.length) := by
  have hopen : perform (issue .wopen) s = .next (writing s s.pb s.fb [] .frame 0) :=
    (perform_issue ..).trans (unitCommand_ready hready)
  have hcount : fs.length ≤ (layout s.sentinel s.mode 0 (fs.map code)).length := by
    have hle := length_le_length_layout (m := s.mode) (k := 0) (slen_pos s) (fs.map code)
    rwa [List.length_map] at hle
  rw [performAll_cons_of_next hopen]
  have hloop := performAll_writeLoop (k := 0) (o := []) hready (by simpa using hfits) (by simpa using hcap)
    (by simpa using hcount.trans hcap.1) s.pb s.fb
  simpa using hloop

end Loop

/-! ## Writing coded frames -/

section Coded
variable {s : State} {fs : List CodedFrame} (hready : s.ready) (hfit : FramesFit s fs)
include hfit

/-- The payloads of frames that fit are within `PB`, since they are part of a stream within `OUT`. -/
theorem FramesFit.payload_admitted {j : Nat} {f : CodedFrame} (hf : fs[j]? = some f) :
    s.admits .pb f.payload.length := by
  have hunit := length_frame_unit_le (sentinel := s.sentinel) (m := s.mode) (k := 0 + j) f
  have hpart := length_unitsOf_le_layout (sentinel := s.sentinel) (m := s.mode) (k := 0) hf
  have hlimit := hfit.stream.1
  exact ⟨by omega, hfit.payloads f (List.mem_of_getElem? hf)⟩

theorem FramesFit.motion_admitted {j : Nat} {f : CodedFrame} (hf : fs[j]? = some f)
    (hdue : motionDue s.mode j = true) : f.motion.length = s.mlen ∧ s.admits .pb s.mlen := by
  obtain ⟨hlen, hcap⟩ := hfit.motions j f hf hdue
  have hunit := length_units_due (sentinel := s.sentinel) hdue f
  have hpart := length_unitsOf_le_layout (sentinel := s.sentinel) (m := s.mode) (k := 0) hf
  have hlimit := hfit.stream.1
  rw [Nat.zero_add] at hpart
  exact ⟨hlen, by omega, hcap⟩

include hready

theorem FramesFit.unitsFit {j : Nat} {f : CodedFrame} (hf : fs[j]? = some f) :
    UnitsFit s [.hloadp f.motion] (motionDue s.mode j = true) f where
  payload := hfit.payload_admitted hf
  length hdue := (hfit.motion_admitted hf hdue).1
  loads hdue := by
    obtain ⟨hlen, hcap⟩ := hfit.motion_admitted hf hdue
    exact loads_hloadp hready (hlen ▸ hcap)

theorem performAll_writeEvents :
    ∃ p l, performAll (issue .wopen :: writeEvents s.mode 0 fs) s =
      .next (writing s p l (layout s.sentinel s.mode 0 fs) .frame fs.length) := by
  have hrun := performAll_wopen_writeLoop (code := id) (load := fun f => [.hloadp f.motion]) hready
    (fun j f hf => hfit.unitsFit hready hf) (by rw [List.map_id]; exact hfit.stream)
  rwa [List.map_id, ← writeEvents_eq_writeLoop] at hrun

end Coded

/-- Settles O49: the run appends the stream frame by frame, and the stream's length is that of R175. -/
theorem writerWritesTheStreamLayout : Obligations.WriterWritesTheStreamLayout := by
  intro s fs hready hfit
  obtain ⟨p, l, hrun⟩ := performAll_writeEvents hready hfit
  refine ⟨_, hrun, hready.1, rfl, rfl, rfl, fun hmode => length_layout_frames hmode fs, fun hmode => ?_⟩
  have hmotions : ∀ f ∈ fs.tail, f.motion.length = s.mlen := by
    intro f hf
    obtain ⟨j, hj⟩ := List.mem_iff_getElem?.1 hf
    rw [List.getElem?_tail] at hj
    exact (hfit.motion_admitted hj (motionDue_eq_true_iff.2 ⟨hmode, j.succ_pos⟩)).1
  change (layout s.sentinel s.mode 0 fs).length = _
  rw [hmode]
  exact length_layout_block_matching hmotions

end Sys2Proof.Machine

/-! Reading back what was written: the next unit of a stream, and the run that reads all of them (R192, R193, R196). -/

namespace Sys2Proof.Machine

/-! ## The next unit of a stream (R12, R105) -/

section Unit
variable {sentinel p b rest : Bits} {c : Nat}

theorem le_length_of_drop_ne_nil (h : b.drop c ≠ []) : c ≤ b.length :=
  le_of_not_gt fun hlt => h (List.drop_eq_nil_of_le hlt.le)

/-- The property of R105 does not depend on what follows the sentinel. -/
theorem find_unit (hsentinel : sentinel ≠ []) (hsafe : sentinelSafe sentinel p) :
    find sentinel (p ++ sentinel ++ rest) 0 = some p.length := by
  obtain ⟨-, -, hfirst⟩ := (find_eq_some_iff hsentinel (Nat.zero_le _)).1 hsafe
  refine (find_eq_some_iff hsentinel (Nat.zero_le _)).2 ⟨Nat.zero_le _, ?_, fun q hq hlt hstands => ?_⟩
  · rw [List.append_assoc, List.drop_left]
    exact List.prefix_append _ _
  · have hsplit : (p ++ sentinel ++ rest).drop q = (p ++ sentinel).drop q ++ rest := by
      refine List.drop_append_of_le_length ?_
      rw [List.length_append]
      omega
    rw [hsplit] at hstands
    refine hfirst q hq hlt (List.prefix_of_prefix_length_le hstands (List.prefix_append _ rest) ?_)
    rw [List.length_drop, List.length_append]
    omega

theorem drop_of_append (h : b.drop c = p ++ rest) : b.drop (c + p.length) = rest := by
  rw [← List.drop_drop, h, List.drop_left]

variable (hunit : b.drop c = p ++ sentinel ++ rest)
include hunit

theorem find_next_unit (hsentinel : sentinel ≠ []) (hsafe : sentinelSafe sentinel p) :
    find sentinel b c = some (c + p.length) := by
  have hc : c ≤ b.length := le_length_of_drop_ne_nil (by simp [hunit, hsentinel])
  rw [find_eq_find_drop hc, hunit, find_unit hsentinel hsafe, Option.map_some, Nat.add_comm]

theorem slice_payload : slice b c (c + p.length) = p := by
  rw [slice, hunit, Nat.add_sub_cancel_left, List.append_assoc, List.take_left]

theorem slice_sentinel : slice b (c + p.length) (c + p.length + sentinel.length) = sentinel := by
  rw [slice, ← List.drop_drop, hunit, Nat.add_sub_cancel_left, List.append_assoc, List.drop_left, List.take_left]

theorem drop_unit : b.drop (c + p.length + sentinel.length) = rest := by
  rw [Nat.add_assoc, ← List.length_append]
  exact drop_of_append hunit

end Unit

/-! ## The run that reads a frame (R192, R193, R223) -/

/-- A state of a reading run from `s`: `PB` and `FB` are `p` and `l`, the reader holds `c`, `r` and `k`, and the host has
the replies `rs`. -/
def reading (s : State) (p : Bits) (l : List Int) (c : Nat) (r : RState) (k : Nat) (rs : List Reply) : State :=
  { s with pb := p, fb := l, cur := c, rstate := r, rk := k, replies := rs }

/-- The units of a frame can be read in a run from `s`. -/
structure UnitsReadable (s : State) (due : Prop) (f : CodedFrame) : Prop where
  payload : s.admits .pb f.payload.length
  safe : sentinelSafe s.sentinel f.payload
  motion : due → f.motion.length = s.mlen ∧ s.admits .pb s.mlen

theorem performAll_hreadp_of_next {e : HostEvent} {s t : State} {p : Bits} {l : List Int} {c k : Nat}
    {r : RState} {rs : List Reply}
    (h : perform e t = .next (reading s p l c r k rs)) :
    performAll [e, .hreadp] t = .next (reading s p l c r k (rs ++ [.bits p])) :=
  performAll_pair h rfl

/-- What reading the payloads of frame `k` returns. -/
def deliveredOf (m : BitVec 2) (k : Nat) (f : CodedFrame) : List Reply :=
  [.bits f.payload] ++ if motionDue m k then [.bits f.motion] else []

section Frame
variable {s : State} (hready : s.ready) {p q rest : Bits} {l : List Int} {c k : Nat} {rs : List Reply}
include hready

section FrameUnit
variable (hunit : s.inp.drop c = q ++ s.sentinel ++ rest) (hcap : s.admits .pb q.length)
  (hsafe : sentinelSafe s.sentinel q)
include hunit hcap hsafe

theorem perform_rframe_due (hdue : motionDue s.mode k = true) :
    perform (issue .rframe) (reading s p l c .frame k rs) =
      .next (reading s q l (c + q.length + s.slen) .motion k rs) := by
  have hwidth : c + q.length - c = q.length := Nat.add_sub_cancel_left ..
  have hread : exec .rframe (reading s p l c .frame k rs) =
      .next (reading s (slice s.inp c (c + q.length)) l (c + q.length + s.slen) .motion k rs) :=
    exec_rframe_owing (s := reading s p l c .frame k rs) hready rfl
      (find_next_unit hunit (sentinel_ne_nil s) hsafe) (hwidth.symm ▸ hcap) (motionDue_eq_true_iff.1 hdue)
  rw [perform_issue, hread, slice_payload hunit]

theorem perform_rframe_last (hdue : ¬ motionDue s.mode k = true) (hcount : k + 1 ≤ Config.cntMax) :
    perform (issue .rframe) (reading s p l c .frame k rs) =
      .next (reading s q l (c + q.length + s.slen) .frame (k + 1) rs) := by
  have hwidth : c + q.length - c = q.length := Nat.add_sub_cancel_left ..
  have hread : exec .rframe (reading s p l c .frame k rs) =
      .next (reading s (slice s.inp c (c + q.length)) l (c + q.length + s.slen) .frame (k + 1) rs) :=
    exec_rframe_complete (s := reading s p l c .frame k rs) hready rfl
      (find_next_unit hunit (sentinel_ne_nil s) hsafe) (hwidth.symm ▸ hcap) (mt motionDue_eq_true_iff.2 hdue) hcount
  rw [perform_issue, hread, slice_payload hunit]

end FrameUnit

theorem perform_rmotion (hunit : s.inp.drop c = q ++ s.sentinel ++ rest) (hlen : q.length = s.mlen)
    (hcap : s.admits .pb s.mlen) (hcount : k + 1 ≤ Config.cntMax) :
    perform (issue .rmotion) (reading s p l c .motion k rs) =
      .next (reading s q l (c + q.length + s.slen) .frame (k + 1) rs) := by
  have hwhole : s.mlen + s.slen ≤ s.inp.length - c := by
    have hlength := congrArg List.length hunit
    rw [List.length_drop, List.length_append, List.length_append] at hlength
    rw [← hlen, State.slen]
    omega
  have hcur : c ≤ s.inp.length := le_length_of_drop_ne_nil (by simp [hunit, sentinel_ne_nil s])
  have hsentinel : slice s.inp (c + s.mlen) (c + s.mlen + s.slen) = s.sentinel := hlen ▸ slice_sentinel hunit
  obtain ⟨-, -, -, htaken⟩ :=
    (rmotionTakesTheFieldByLength (reading s p l c .motion k rs) hready.1).2 hready.2 rfl hcur
  have hread : exec .rmotion (reading s p l c .motion k rs) =
      .next (reading s (slice s.inp c (c + s.mlen)) l (c + s.mlen + s.slen) .frame (k + 1) rs) :=
    htaken hwhole hsentinel hcap hcount
  rw [perform_issue, hread, ← hlen, slice_payload hunit]

/-- One round of the reading events delivers the payloads of frame `k` and counts it. -/
theorem performAll_readFrame {f : CodedFrame} (hstream : s.inp.drop c = unitsOf s.sentinel s.mode k f ++ rest)
    (hfits : UnitsReadable s (motionDue s.mode k = true) f) (hcount : k + 1 ≤ Config.cntMax) (p : Bits) :
    ∃ p', performAll ([issue .rframe, .hreadp] ++ if motionDue s.mode k then [issue .rmotion, .hreadp] else [])
        (reading s p l c .frame k rs) =
      .next (reading s p' l (c + (unitsOf s.sentinel s.mode k f).length) .frame (k + 1)
        (rs ++ deliveredOf s.mode k f)) := by
  by_cases hdue : motionDue s.mode k = true
  · obtain ⟨hlen, hcap⟩ := hfits.motion hdue
    rw [unitsOf_due hdue, List.append_assoc] at hstream
    have hframe := performAll_hreadp_of_next
      (perform_rframe_due (p := p) (l := l) (k := k) (rs := rs) hready hstream hfits.payload hfits.safe hdue)
    have hmotion := performAll_hreadp_of_next
      (perform_rmotion (p := f.payload) (l := l) (k := k) (rs := rs ++ [.bits f.payload]) hready (drop_unit hstream) hlen
        hcap hcount)
    refine ⟨f.motion, ?_⟩
    rw [if_pos hdue, performAll_append_of_next hframe, deliveredOf, if_pos hdue, length_units_due hdue,
      ← List.append_assoc, ← Nat.add_assoc, ← Nat.add_assoc, ← Nat.add_assoc]
    exact hmotion
  · rw [unitsOf_not_due hdue] at hstream
    refine ⟨f.payload, ?_⟩
    rw [if_neg hdue, List.append_nil, deliveredOf, if_neg hdue, List.append_nil, unitsOf_not_due hdue,
      List.length_append, ← Nat.add_assoc]
    exact performAll_hreadp_of_next (perform_rframe_last hready hstream hfits.payload hfits.safe hdue hcount)

end Frame

/-! ## The run that reads all frames (R196) -/

section Run
variable {s : State} (hready : s.ready)
include hready

theorem performAll_readEvents {fs : List CodedFrame} {k c : Nat}
    (hstream : s.inp.drop c = layout s.sentinel s.mode k fs)
    (hfits : ∀ j f, fs[j]? = some f → UnitsReadable s (motionDue s.mode (k + j) = true) f)
    (hcount : k + fs.length ≤ Config.cntMax) (p : Bits) (l : List Int) (rs : List Reply) :
    ∃ p', performAll (readEvents s.mode k fs.length) (reading s p l c .frame k rs) =
      .next (reading s p' l (c + (layout s.sentinel s.mode k fs).length) .frame (k + fs.length)
        (rs ++ delivered s.mode k fs)) := by
  induction fs generalizing k c p rs with
  | nil => exact ⟨p, by rw [delivered, List.append_nil]; rfl⟩
  | cons f fs ih =>
    rw [layout_cons] at hstream
    rw [List.length_cons] at hcount
    obtain ⟨p₁, hframe⟩ := performAll_readFrame (l := l) (rs := rs) hready hstream (hfits 0 f rfl) (by omega) p
    have hrest : ∀ j g, fs[j]? = some g → UnitsReadable s (motionDue s.mode (k + 1 + j) = true) g :=
      fun j g hg => (Nat.add_right_comm k j 1 ▸ hfits (j + 1) g hg :)
    obtain ⟨p', hloop⟩ := ih (k := k + 1) (drop_of_append hstream) hrest (by omega) p₁ (rs ++ deliveredOf s.mode k f)
    refine ⟨p', ?_⟩
    have hnext : k + 1 + fs.length = k + (fs.length + 1) := by omega
    rw [List.length_cons, readEvents, performAll_append_of_next hframe, hloop, layout_cons, List.length_append,
      List.append_assoc, ← Nat.add_assoc c, hnext]
    rfl

/-- Behind the last unit the stream ends, with nothing left. -/
theorem exec_rframe_at_end {p : Bits} {l : List Int} {k : Nat} {rs : List Reply} :
    exec .rframe (reading s p l s.inp.length .frame k rs) =
      .next { reading s p l s.inp.length .done k rs with eos := true, trailing := false } := by
  have hnone : find s.sentinel [] 0 = none :=
    (find_eq_none_iff (sentinel_ne_nil s) le_rfl).2 fun q _ hstands => by
      simp [sentinel_ne_nil s] at hstands
  exact exec_rframe_padding_end (s := reading s p l s.inp.length .frame k rs) (units := s.inp) (pad := []) hready rfl
    (List.append_nil _).symm rfl hnone

end Run

/-! ## Writing, loading back and reading (R196) -/

/-- The block of `s` with the stream of `fs` written and loaded back. -/
def loopedBack (s : State) (fs : List CodedFrame) : State :=
  { s with
    out := layout s.sentinel s.mode 0 fs, inp := layout s.sentinel s.mode 0 fs, wstate := .frame, wk := fs.length
    eos := false, trailing := false }

section LoopedBack
variable {s : State} {fs : List CodedFrame}

theorem performAll_loopback (hready : s.ready) (hloads : StreamLoads s fs) (p : Bits) (l : List Int) (rs : List Reply) :
    performAll [.hloadin .readout, issue .ropen]
        { writing s p l (layout s.sentinel s.mode 0 fs) .frame fs.length with replies := rs } =
      .next (reading (loopedBack s fs) p l 0 .frame 0 rs) :=
  performAll_pair
    (perform_hloadin (s := { writing s p l (layout s.sentinel s.mode 0 fs) .frame fs.length with replies := rs })
      (src := .readout) hready.1 hloads)
    ((perform_issue ..).trans (unitCommand_ready (i := .ropen) hready))

theorem FramesFit.length_le (hfit : FramesFit s fs) : 0 + fs.length ≤ Config.cntMax := by
  have hle := length_le_length_layout (m := s.mode) (k := 0) (slen_pos s) fs
  have hlimit := hfit.stream.1
  omega

/-- What was written can be read: payloads with the property of R105, motion payloads of `MLEN` bits. -/
theorem FramesFit.unitsReadable (hfit : FramesFit s fs) (hsafe : ∀ f ∈ fs, sentinelSafe s.sentinel f.payload) {j : Nat}
    {f : CodedFrame} (hf : fs[j]? = some f) :
    UnitsReadable (loopedBack s fs) (motionDue s.mode (0 + j) = true) f where
  payload := hfit.payload_admitted hf
  safe := hsafe f (List.mem_of_getElem? hf)
  motion hdue := hfit.motion_admitted hf (j.zero_add ▸ hdue)

end LoopedBack

/-- Settles O50: the writing run, the stream loaded back, and the reading run to the end of the input. -/
theorem readerRecoversWhatTheWriterWrote : Obligations.ReaderRecoversWhatTheWriterWrote := by
  intro s fs hready hfit hloads hsafe
  obtain ⟨p, l, hwrite⟩ := performAll_writeEvents hready hfit
  have hopen := (performAll_append_of_next hwrite _).trans (performAll_loopback hready hloads p l s.replies)
  obtain ⟨p', hread⟩ := performAll_readEvents (s := loopedBack s fs) (k := 0) (c := 0) hready rfl
    (fun j f hf => hfit.unitsReadable hsafe hf) hfit.length_le p l s.replies
  rw [Nat.zero_add, Nat.zero_add] at hread
  have hrun := (performAll_append_of_next hopen _).trans hread
  exact ⟨_, _, hrun, hready.1, rfl, rfl, rfl, exec_rframe_at_end (s := loopedBack s fs) hready, hready.1, rfl, rfl, rfl⟩

end Sys2Proof.Machine

/-! The host's encoding sequence and decoding loop (R222, R223), which give back every payload and every signed
field. -/

namespace Sys2Proof.Machine

/-! ## The encoding sequence (R222) -/

/-- The frame that a payload and a signed field become. -/
def codedFrame (s : State) (f : FrameData) : CodedFrame :=
  ⟨f.payload, packFields (quant f.field s.radius) s.bitwidth⟩

theorem coded_eq_map (s : State) (fs : List FrameData) : coded s fs = fs.map (codedFrame s) := rfl

theorem encodeFrames_eq_writeLoop (s : State) (m : BitVec 2) (k : Nat) (fs : List FrameData) :
    encodeFrames m k fs = writeLoop (codedFrame s) (fun f => [.hloadf f.field, issue .mvqpack]) m k fs := by
  induction fs generalizing k with
  | nil => rfl
  | cons f fs ih =>
    rw [encodeFrames, writeLoop, ih]
    rfl

/-- A field that fits is loaded and packed as the motion payload of its coded frame. -/
theorem loads_field {s : State} (hready : s.ready) {f : FrameData} (hfield : s.fieldFits f.field)
    (hfbCap : s.admits .fb s.nfields) (hpbCap : s.admits .pb s.mlen) :
    Loads s [.hloadf f.field, issue .mvqpack] (codedFrame s f).motion := fun p l o w k => by
  obtain ⟨hlen, hwindow⟩ := hfield
  have hfits := (quant_fits_iff f.field s.radius s.bitwidth).2 hwindow
  exact ⟨f.field, performAll_pair (perform_hloadf (s := writing s p l o w k) hready hfbCap hlen)
    (perform_mvqpack_of_fits (s := writing s p f.field o w k) hready hpbCap hlen hfits)⟩

/-! ## The decoding loop (R223) -/

theorem attempt_of_next {es : List HostEvent} {s t : State} {k : State → LoopEnd} (h : performAll es s = .next t)
    (hclear : t.fault = false) : attempt es s k = k t := by
  rw [attempt, h]
  exact if_neg (by simp [hclear])

/-- What the loop gets of frame `k`. -/
def recoveredOf (m : BitVec 2) (k : Nat) (f : FrameData) : List Reply :=
  [.bits f.payload] ++ if motionDue m k then [.ints f.field] else []

section Loop
variable {s : State} (hready : s.ready)
include hready

/-- MVUNPACKQ on the motion payload of a coded frame, and the read of the field. -/
theorem performAll_unpack_reading {f : FrameData} (hfield : s.fieldFits f.field) (hcap : s.admits .fb s.nfields)
    (l : List Int) (c : Nat) (k : Nat) (rs : List Reply) :
    performAll [issue .mvunpackq, .hreadf] (reading s (codedFrame s f).motion l c .frame k rs) =
      .next (reading s (codedFrame s f).motion f.field c .frame k (rs ++ [.ints f.field])) := by
  obtain ⟨hshape, hwindow⟩ := hfield
  have hfits := (quant_fits_iff f.field s.radius s.bitwidth).2 hwindow
  have hunpack : perform (issue .mvunpackq) (reading s (codedFrame s f).motion l c .frame k rs) =
      .next (reading s (codedFrame s f).motion f.field c .frame k rs) :=
    perform_mvunpackq_of_payload (s := reading s (codedFrame s f).motion l c .frame k rs) hready hcap hshape hfits rfl
  exact performAll_pair hunpack rfl

/-- One round of the loop on the units of frame `k`. -/
theorem decodeLoop_readFrame (heos : s.eos = false) {f : FrameData} {k c : Nat} {rest p : Bits} {l : List Int}
    {rs : List Reply} (hstream : s.inp.drop c = unitsOf s.sentinel s.mode k (codedFrame s f) ++ rest)
    (hread : UnitsReadable s (motionDue s.mode k = true) (codedFrame s f))
    (hfield : motionDue s.mode k = true → s.fieldFits f.field ∧ s.admits .fb s.nfields)
    (hcount : k + 1 ≤ Config.cntMax) (n : Nat) :
    ∃ p' l', decodeLoop (n + 1) (reading s p l c .frame k rs) =
      decodeLoop n (reading s p' l' (c + (unitsOf s.sentinel s.mode k (codedFrame s f)).length) .frame (k + 1)
        (rs ++ recoveredOf s.mode k f)) := by
  have hopen : ¬ s.eos = true := by simp [heos]
  by_cases hdue : motionDue s.mode k = true
  · obtain ⟨hlen, hcap⟩ := hread.motion hdue
    obtain ⟨hfits, hfbCap⟩ := hfield hdue
    rw [unitsOf_due hdue, List.append_assoc] at hstream
    have hframe := perform_rframe_due (p := p) (l := l) (k := k) (rs := rs) hready hstream hread.payload hread.safe hdue
    have hmotion := perform_rmotion (p := f.payload) (l := l) (k := k) (rs := rs ++ [.bits f.payload]) hready
      (drop_unit hstream) hlen hcap hcount
    refine ⟨(codedFrame s f).motion, f.field, ?_⟩
    rw [decodeLoop]
    refine (attempt_of_next ((performAll_singleton ..).trans hframe) hready.1).trans ((if_neg hopen).trans ?_)
    refine (attempt_of_next (t := reading s f.payload l (c + f.payload.length + s.slen) .motion k
      (rs ++ [.bits f.payload])) rfl hready.1).trans ((if_pos rfl).trans ?_)
    refine (attempt_of_next ((performAll_singleton ..).trans hmotion) hready.1).trans ?_
    refine (attempt_of_next (performAll_unpack_reading hready hfits hfbCap _ _ _ _) hready.1).trans ?_
    rw [recoveredOf, if_pos hdue, length_units_due hdue, ← List.append_assoc, ← Nat.add_assoc, ← Nat.add_assoc,
      ← Nat.add_assoc]
    rfl
  · rw [unitsOf_not_due hdue] at hstream
    have hframe := perform_rframe_last (p := p) (l := l) (k := k) (rs := rs) hready hstream hread.payload hread.safe hdue
      hcount
    refine ⟨f.payload, l, ?_⟩
    rw [decodeLoop]
    refine (attempt_of_next ((performAll_singleton ..).trans hframe) hready.1).trans ((if_neg hopen).trans ?_)
    refine (attempt_of_next (t := reading s f.payload l (c + f.payload.length + s.slen) .frame (k + 1)
      (rs ++ [.bits f.payload])) rfl hready.1).trans ((if_neg (by simp [reading])).trans ?_)
    rw [recoveredOf, if_neg hdue, List.append_nil, unitsOf_not_due hdue, List.length_append, ← Nat.add_assoc]
    rfl

/-- The loop on the stream of all frames, with rounds to spare. -/
theorem decodeLoop_readFrames (heos : s.eos = false) {fs : List FrameData} {k c : Nat}
    (hstream : s.inp.drop c = layout s.sentinel s.mode k (coded s fs))
    (hread : ∀ j f, fs[j]? = some f → UnitsReadable s (motionDue s.mode (k + j) = true) (codedFrame s f))
    (hfield : ∀ j f, fs[j]? = some f → motionDue s.mode (k + j) = true →
      s.fieldFits f.field ∧ s.admits .fb s.nfields)
    (hcount : k + fs.length ≤ Config.cntMax) (n : Nat) (p : Bits) (l : List Int) (rs : List Reply) :
    ∃ p' l', decodeLoop (fs.length + n) (reading s p l c .frame k rs) =
      decodeLoop n (reading s p' l' (c + (layout s.sentinel s.mode k (coded s fs)).length) .frame (k + fs.length)
        (rs ++ recovered s.mode k fs)) := by
  induction fs generalizing k c p l rs with
  | nil => exact ⟨p, l, by rw [recovered, List.append_nil, List.length_nil, Nat.zero_add]; rfl⟩
  | cons f fs ih =>
    rw [coded_eq_map, List.map_cons, layout_cons] at hstream
    rw [List.length_cons] at hcount
    obtain ⟨p₁, l₁, hround⟩ := decodeLoop_readFrame (p := p) (l := l) (rs := rs) hready heos hstream (hread 0 f rfl)
      (hfield 0 f rfl) (by omega) (fs.length + n)
    have hnext (j : Nat) : k + 1 + j = k + (j + 1) := by omega
    obtain ⟨p', l', hloop⟩ := ih (k := k + 1) (drop_of_append hstream)
      (fun j g hg => hnext j ▸ hread (j + 1) g hg) (fun j g hg => hnext j ▸ hfield (j + 1) g hg) (by omega) p₁ l₁
      (rs ++ recoveredOf s.mode k f)
    refine ⟨p', l', ?_⟩
    rw [List.length_cons, Nat.add_right_comm, hround, hloop, coded_eq_map, coded_eq_map, List.map_cons, layout_cons,
      List.length_append, List.append_assoc, ← Nat.add_assoc c, hnext]
    rfl

/-- At the end of the input the loop ends. -/
theorem decodeLoop_at_end (p : Bits) (l : List Int) (k : Nat) (rs : List Reply) :
    decodeLoop 1 (reading s p l s.inp.length .frame k rs) =
      .ended { reading s p l s.inp.length .done k rs with eos := true, trailing := false } := by
  have hend := exec_rframe_at_end (p := p) (l := l) (k := k) (rs := rs) hready
  rw [decodeLoop]
  exact (attempt_of_next ((performAll_singleton ..).trans ((perform_issue ..).trans hend)) hready.1).trans (if_pos rfl)

end Loop

/-! ## Encoding, loading back and decoding (R152, R196, R222, R223) -/

section Encoded
variable {s : State} {fs : List FrameData} (hready : s.ready) (hfit : FramesFit s (coded s fs))
  (hfield : ∀ k f, fs[k]? = some f → motionDue s.mode k = true → s.fieldFits f.field ∧ s.admits .fb s.nfields)
include hready hfit hfield

theorem unitsFit_encoded {j : Nat} {f : FrameData} (hf : fs[j]? = some f) :
    UnitsFit s [.hloadf f.field, issue .mvqpack] (motionDue s.mode j = true) (codedFrame s f) := by
  have hcoded : (coded s fs)[j]? = some (codedFrame s f) := by rw [coded_eq_map, List.getElem?_map, hf]; rfl
  refine ⟨hfit.payload_admitted hcoded, fun hdue => (hfit.motion_admitted hcoded hdue).1, fun hdue => ?_⟩
  obtain ⟨hfits, hfbCap⟩ := hfield j f hf hdue
  exact loads_field hready hfits hfbCap (hfit.motion_admitted hcoded hdue).2

/-- The encoding sequence writes the stream of the coded frames and reads it out. -/
theorem performAll_encodeSequence :
    ∃ p l, performAll (encodeSequence s.mode fs) s =
      .next { writing s p l (layout s.sentinel s.mode 0 (coded s fs)) .frame (coded s fs).length with
        replies := s.replies ++ [.bits (layout s.sentinel s.mode 0 (coded s fs))] } := by
  obtain ⟨p, l, hwrite⟩ := performAll_wopen_writeLoop (code := codedFrame s)
    (load := fun f => [.hloadf f.field, issue .mvqpack]) hready (fun j f hf => unitsFit_encoded hready hfit hfield hf)
    hfit.stream
  rw [← encodeFrames_eq_writeLoop] at hwrite
  refine ⟨p, l, (performAll_append_of_next hwrite _).trans ?_⟩
  rw [coded_eq_map, List.length_map]
  rfl

end Encoded

/-- Settles O51: the encoding sequence, the stream loaded back, a round of the loop for each frame, and one more that
finds the end. -/
theorem decodingLoopRecoversEncodedFrames : Obligations.DecodingLoopRecoversEncodedFrames := by
  intro s fs hready hfit hloads hfield hsafe
  obtain ⟨p, l, hencode⟩ := performAll_encodeSequence hready hfit hfield
  have hopen := (performAll_append_of_next hencode _).trans
    (performAll_loopback (fs := coded s fs) hready hloads p l
      (s.replies ++ [.bits (layout s.sentinel s.mode 0 (coded s fs))]))
  have hsafe' : ∀ f ∈ coded s fs, sentinelSafe s.sentinel f.payload := List.forall_mem_map.2 hsafe
  have hread : ∀ j f, fs[j]? = some f →
      UnitsReadable (loopedBack s (coded s fs)) (motionDue s.mode (0 + j) = true) (codedFrame s f) := fun j f hf =>
    hfit.unitsReadable hsafe' (by rw [coded_eq_map, List.getElem?_map, hf]; rfl)
  have hcount : 0 + fs.length ≤ Config.cntMax := by
    have hle := hfit.length_le
    rwa [coded_eq_map, List.length_map] at hle
  obtain ⟨p', l', hloop⟩ := decodeLoop_readFrames (s := loopedBack s (coded s fs)) (k := 0) (c := 0) hready rfl rfl hread
    (fun j f hf hdue => hfield j f hf (j.zero_add ▸ hdue)) hcount 1 p l
    (s.replies ++ [.bits (layout s.sentinel s.mode 0 (coded s fs))])
  rw [Nat.zero_add, Nat.zero_add] at hloop
  have hend := hloop.trans (decodeLoop_at_end (s := loopedBack s (coded s fs)) hready p' l' fs.length _)
  exact ⟨_, _, hopen, hend, rfl, rfl, rfl, rfl⟩

end Sys2Proof.Machine
